-- ==== Sys2Proof/Word.lean ====
section
/-!
DEFINITION. Word.lean: the word types of the machine (spec/00 R3, spec/04 R44, R55) and nothing that a test could show
wrong: every helper over them stands in a file under Machine/.
-/

namespace Sys2Proof

/-- A byte of memory. -/
abbrev Byte := BitVec 8

/-- The 64 bits a scalar instruction computes with (04 R44). -/
abbrev Word := BitVec 64

/-- The 128 value bits of an x register (04 R44). -/
abbrev Quad := BitVec 128

/-- The 512 bits of a vector register (04 R55). -/
abbrev Vec := BitVec 512

/-- A ULM offset, or a program counter: 18 bits (04 R58, 23 R322). -/
abbrev Ulm := BitVec 18

/-- The low 64 bits of a quad. -/
abbrev Quad.low (q : Quad) : Word := q.setWidth 64

end Sys2Proof
end

