-- ==== Sys2Proof/Machine/Numbers.lean ====
section
/-!
DEFINITION. Numbers.lean: the floating-point formats (05 R60, R61), one exact value type, the one rounding (R66, R69) with its
flags (R68), and IEEE arithmetic, comparison and conversion over it (R62, 11 R211 to R218, R221).
-/

namespace Sys2Proof.Machine

/-! ## Formats (05 R60, R61) -/

/-- The floating-point formats. -/
inductive Fmt where
  | fp64 | fp32 | fp16 | bf16 | e4m3 | e5m2 | e2m3 | e3m2 | e2m1
deriving DecidableEq, Repr

/-- Exponent bits. -/
def Fmt.eb : Fmt → Nat
  | .fp64 => 11 | .fp32 => 8 | .fp16 => 5 | .bf16 => 8 | .e4m3 => 4 | .e5m2 => 5 | .e2m3 => 2 | .e3m2 => 3 | .e2m1 => 2

/-- Mantissa bits. -/
def Fmt.mb : Fmt → Nat
  | .fp64 => 52 | .fp32 => 23 | .fp16 => 10 | .bf16 => 7 | .e4m3 => 3 | .e5m2 => 2 | .e2m3 => 3 | .e3m2 => 2 | .e2m1 => 1

def Fmt.bias : Fmt → Nat
  | .fp64 => 1023 | .fp32 => 127 | .fp16 => 15 | .bf16 => 127 | .e4m3 => 7 | .e5m2 => 15 | .e2m3 => 1 | .e3m2 => 3 | .e2m1 => 1

/-- Width in bits. -/
def Fmt.width (f : Fmt) : Nat := 1 + f.eb + f.mb

/-- Has the format infinities and NaNs at the all-ones exponent? -/
def Fmt.ieee : Fmt → Bool
  | .e4m3 | .e2m3 | .e3m2 | .e2m1 => false
  | _ => true

/-- Has the format a NaN? -/
def Fmt.hasNaN : Fmt → Bool
  | .e2m3 | .e3m2 | .e2m1 => false
  | _ => true

/-- The canonical NaN; 0 for a format without one, which is what R69 writes there. -/
def Fmt.nan (f : Fmt) : Nat :=
  if f.ieee then (2 ^ f.eb - 1) * 2 ^ f.mb + 2 ^ (f.mb - 1) else if f = .e4m3 then 0x7F else 0

/-- The largest finite magnitude's exponent and mantissa fields. -/
def Fmt.maxField (f : Fmt) : Nat × Nat :=
  if f.ieee then (2 ^ f.eb - 2, 2 ^ f.mb - 1) else if f = .e4m3 then (15, 6) else (2 ^ f.eb - 1, 2 ^ f.mb - 1)

/-! ## Exact values -/

/-- A value: a NaN, an infinity, or (-1)^neg * m * 2^e. -/
inductive FVal where
  | nan (signalling : Bool)
  | inf (neg : Bool)
  | num (neg : Bool) (m : Nat) (e : Int)
deriving DecidableEq, Repr

/-- The value an encoding holds, read from the format's low bits. -/
def Fmt.unpack (f : Fmt) (bits : Nat) : FVal :=
  let neg := bits.testBit (f.eb + f.mb)
  let e := bits / 2 ^ f.mb % 2 ^ f.eb
  let m := bits % 2 ^ f.mb
  if f.ieee ∧ e = 2 ^ f.eb - 1 then
    if m = 0 then .inf neg else .nan (!m.testBit (f.mb - 1))
  else if f = .e4m3 ∧ e = 15 ∧ m = 7 then .nan false
  else if e = 0 then .num neg m (1 - (f.bias : Int) - f.mb)
  else .num neg (m + 2 ^ f.mb) ((e : Int) - f.bias - f.mb)

def FVal.isNaN : FVal → Bool
  | .nan _ => true
  | _ => false

def FVal.isSNaN : FVal → Bool
  | .nan b => b
  | _ => false

def FVal.isZero : FVal → Bool
  | .num _ 0 _ => true
  | _ => false

def FVal.neg : FVal → FVal
  | .nan b => .nan b
  | .inf s => .inf (!s)
  | .num s m e => .num (!s) m e

def FVal.abs : FVal → FVal
  | .nan b => .nan b
  | .inf _ => .inf false
  | .num _ m e => .num false m e

/-- An integer as a value; zero is +0. -/
def FVal.ofInt (v : Int) : FVal := .num (decide (v < 0)) v.natAbs 0

/-- Multiply by 2^k. -/
def FVal.scale (k : Int) : FVal → FVal
  | .num s m e => .num s m (e + k)
  | x => x

/-! ## Rounding (05 R66) and flags (R68) -/

/-- The rounding modes. -/
inductive Rnd where
  | rne | rtz | rdn | rup
deriving DecidableEq, Repr

/-- The mode an rm value names; 100 to 111 name none. -/
def Rnd.ofCode (c : BitVec 3) : Option Rnd :=
  if c = 0#3 then some .rne else if c = 1#3 then some .rtz else if c = 2#3 then some .rdn
  else if c = 3#3 then some .rup else none

abbrev FpFlags := BitVec 5

def flagNV : FpFlags := 0b10000#5
def flagDZ : FpFlags := 0b01000#5
def flagOF : FpFlags := 0b00100#5
def flagUF : FpFlags := 0b00010#5
def flagNX : FpFlags := 0b00001#5

/-- A flag if a condition holds. -/
def flagIf (b : Bool) (f : FpFlags) : FpFlags := if b then f else 0#5

/-- m * 2^sh rounded to an integer magnitude, and whether it is inexact. -/
def roundShift (mode : Rnd) (neg : Bool) (m : Nat) (sh : Int) : Nat × Bool :=
  if 0 ≤ sh then (m * 2 ^ sh.toNat, false)
  else
    let p := 2 ^ (-sh).toNat
    let q := m / p
    let rem := m % p
    let up : Bool := match mode with
      | .rne => decide (p < 2 * rem) || (decide (2 * rem = p) && q % 2 == 1)
      | .rtz => false
      | .rdn => neg && rem != 0
      | .rup => !neg && rem != 0
    (if up then q + 1 else q, rem != 0)

/-- Does an overflow in a mode give the infinity of its sign? -/
def Rnd.overflowsToInf : Rnd → Bool → Bool
  | .rne, _ => true
  | .rtz, _ => false
  | .rdn, neg => neg
  | .rup, neg => !neg

/-- Round a value once into a format, as R69 gives. `sat` selects the saturating form of E4M3 and E5M2; the FP6 and FP4
formats always saturate, and the IEEE formats never do. -/
def Fmt.round (f : Fmt) (sat : Bool) (mode : Rnd) (x : FVal) : Nat × FpFlags :=
  let sbit (neg : Bool) : Nat := if neg then 2 ^ (f.eb + f.mb) else 0
  let max := f.maxField.1 * 2 ^ f.mb + f.maxField.2
  let inf := (2 ^ f.eb - 1) * 2 ^ f.mb
  let keepsInf := f.ieee && !(f = .e5m2 && sat)
  match x with
  | .nan s => (f.nan, flagIf (s || !f.hasNaN) flagNV)
  | .inf neg =>
    if keepsInf then (sbit neg + inf, 0#5)
    else if f = .e4m3 ∧ !sat then (f.nan, flagNV)
    else (sbit neg + max, flagNX)
  | .num neg 0 _ => (sbit neg, 0#5)
  | .num neg m e =>
    let top : Int := Nat.log2 m + e
    let emin : Int := 1 - (f.bias : Int)
    let q0 := Max.max top emin - f.mb
    let r0 := roundShift mode neg m (e - q0)
    let carry := decide (2 ^ (f.mb + 1) ≤ r0.1)
    let r := if carry then r0.1 / 2 else r0.1
    let q := if carry then q0 + 1 else q0
    let tiny := decide (top < emin) &&
      (let ru := (roundShift mode neg m (e - (top - f.mb))).1
       decide ((Nat.log2 ru : Int) + top - f.mb < emin))
    let qmax : Int := (f.maxField.1 : Int) - f.bias - f.mb
    if qmax < q ∨ (q = qmax ∧ 2 ^ f.mb + f.maxField.2 < r) then
      let fl := flagOF ||| flagNX
      if keepsInf then (sbit neg + if mode.overflowsToInf neg then inf else max, fl)
      else if f = .e4m3 ∧ !sat then (f.nan, fl)
      else (sbit neg + max, fl)
    else
      let bits := if r < 2 ^ f.mb then r else (q + f.mb + f.bias).toNat * 2 ^ f.mb + (r - 2 ^ f.mb)
      (sbit neg + bits, flagIf r0.2 flagNX ||| flagIf (tiny && r0.2) flagUF)

/-! ## Arithmetic (05 R62, 11 R211, R213) -/

/-- A number with a sign from an integer mantissa that is not zero. -/
def FVal.ofSum (v e : Int) : FVal := .num (decide (v < 0)) v.natAbs e

/-- The exact signed mantissa at an exponent no larger than e. -/
def scaledTo (neg : Bool) (m : Nat) (e low : Int) : Int :=
  let v : Int := (m * 2 ^ (e - low).toNat : Nat)
  if neg then -v else v

/-- The exact sum; none for the invalid difference of infinities. The sign of an exact zero follows IEEE 754 addition. -/
def FVal.add (mode : Rnd) (x y : FVal) : Option FVal :=
  match x, y with
  | .inf s, .inf t => if s = t then some (.inf s) else none
  | .inf s, _ => some (.inf s)
  | _, .inf t => some (.inf t)
  | .num s m e, .num t n f =>
    let low := Min.min e f
    let v := scaledTo s m e low + scaledTo t n f low
    if v = 0 then
      if m = 0 ∧ n = 0 ∧ s = t then some (.num s 0 0) else some (.num (mode == .rdn) 0 0)
    else some (FVal.ofSum v low)
  | _, _ => none

/-- The exact product; none for 0 times an infinity. -/
def FVal.mul (x y : FVal) : Option FVal :=
  match x, y with
  | .num s m e, .num t n f => some (.num (s != t) (m * n) (e + f))
  | .inf s, .inf t => some (.inf (s != t))
  | .inf s, .num t n _ => if n = 0 then none else some (.inf (s != t))
  | .num s m _, .inf t => if m = 0 then none else some (.inf (s != t))
  | _, _ => none

/-- n / d * 2^e to at least 80 bits, the last of which is set where the quotient is inexact. -/
def FVal.ratio (neg : Bool) (n d : Nat) (e : Int) : FVal :=
  let k := 80 + Nat.log2 d
  let v := n * 2 ^ k
  .num neg (2 * (v / d) + if v % d = 0 then 0 else 1) (e - k - 1)

/-- The quotient, and DZ; none where it is invalid. -/
def FVal.div (x y : FVal) : Option FVal × FpFlags :=
  match x, y with
  | .inf _, .inf _ => (none, 0#5)
  | .inf s, .num t _ _ => (some (.inf (s != t)), 0#5)
  | .num s _ _, .inf t => (some (.num (s != t) 0 0), 0#5)
  | .num s m e, .num t n f =>
    if n = 0 then if m = 0 then (none, 0#5) else (some (.inf (s != t)), flagDZ)
    else if m = 0 then (some (.num (s != t) 0 0), 0#5)
    else (some (FVal.ratio (s != t) m n (e - f)), 0#5)
  | _, _ => (none, 0#5)

/-- The integer square root, bit by bit. -/
def isqrt (m : Nat) : Nat → Nat → Nat
  | 0, r => r
  | n + 1, r => if (r + 2 ^ n) * (r + 2 ^ n) ≤ m then isqrt m n (r + 2 ^ n) else isqrt m n r

/-- The square root to at least 60 bits; none for a negative number. -/
def FVal.sqrt : FVal → Option FVal
  | .inf neg => if neg then none else some (.inf false)
  | .num neg m e =>
    if m = 0 then some (.num neg 0 0)
    else if neg then none
    else
      let odd := e % 2 ≠ 0
      let m1 := if odd then m * 2 else m
      let e1 := if odd then e - 1 else e
      let m2 := m1 * 2 ^ 120
      let r := isqrt m2 (Nat.log2 m2 / 2 + 1) 0
      some (.num false (2 * r + if r * r = m2 then 0 else 1) (e1 / 2 - 61))
  | .nan _ => none

/-- Round an operation's exact result; an invalid one gives the canonical NaN and NV (R62). -/
def Fmt.finish (f : Fmt) (mode : Rnd) (r : Option FVal) (extra : FpFlags) : Nat × FpFlags :=
  match r with
  | none => (f.nan, flagNV)
  | some v =>
    let o := f.round false mode v
    (o.1, o.2 ||| extra)

/-- The NaN rule of arithmetic: any NaN operand gives the canonical NaN, with NV for a signalling one. -/
def Fmt.withNaN (f : Fmt) (ops : List FVal) (r : Nat × FpFlags) : Nat × FpFlags :=
  if ops.any FVal.isNaN then (f.nan, flagIf (ops.any FVal.isSNaN) flagNV) else r

def Fmt.add (f : Fmt) (mode : Rnd) (a b : Nat) : Nat × FpFlags :=
  let x := f.unpack a
  let y := f.unpack b
  f.withNaN [x, y] (f.finish mode (x.add mode y) 0#5)

def Fmt.sub (f : Fmt) (mode : Rnd) (a b : Nat) : Nat × FpFlags :=
  let x := f.unpack a
  let y := f.unpack b
  f.withNaN [x, y] (f.finish mode (x.add mode y.neg) 0#5)

def Fmt.mul (f : Fmt) (mode : Rnd) (a b : Nat) : Nat × FpFlags :=
  let x := f.unpack a
  let y := f.unpack b
  f.withNaN [x, y] (f.finish mode (x.mul y) 0#5)

def Fmt.div (f : Fmt) (mode : Rnd) (a b : Nat) : Nat × FpFlags :=
  let x := f.unpack a
  let y := f.unpack b
  f.withNaN [x, y] (f.finish mode (x.div y).1 (x.div y).2)

def Fmt.sqrt (f : Fmt) (mode : Rnd) (a : Nat) : Nat × FpFlags :=
  let x := f.unpack a
  f.withNaN [x] (f.finish mode x.sqrt 0#5)

/-- c + a * b, or with `minus` c - a * b, rounded once; 0 times an infinity is invalid even beside a NaN (R213). -/
def Fmt.fma (f : Fmt) (mode : Rnd) (minus : Bool) (a b c : Nat) : Nat × FpFlags :=
  let x := f.unpack a
  let y := f.unpack b
  let z := f.unpack c
  let p := x.mul y
  if !x.isNaN ∧ !y.isNaN ∧ p.isNone then (f.nan, flagNV)
  else f.withNaN [x, y, z]
    (f.finish mode (p.bind fun p => (if minus then p.neg else p).add mode z) 0#5)

/-! ## Comparison (11 R214 to R216) -/

/-- The order of two values that are no NaN; -0 equals +0. -/
def FVal.cmp (x y : FVal) : Ordering :=
  match x, y with
  | .inf s, .inf t => compare (!s).toNat (!t).toNat
  | .inf s, _ => if s then .lt else .gt
  | _, .inf t => if t then .gt else .lt
  | .num s m e, .num t n f => compare (scaledTo s m e (Min.min e f)) (scaledTo t n f (Min.min e f))
  | _, _ => .eq

/-- Is the first operand the one that minimumNumber takes, of two that are no NaN? -0 is below +0. -/
def FVal.below (x y : FVal) : Bool :=
  match x, y with
  | .num s 0 _, .num t 0 _ => s || !t
  | _, _ => x.cmp y != .gt

/-- minimumNumber or maximumNumber (R214). -/
def Fmt.minMax (f : Fmt) (isMax : Bool) (a b : Nat) : Nat × FpFlags :=
  let a := a % 2 ^ f.width
  let b := b % 2 ^ f.width
  let x := f.unpack a
  let y := f.unpack b
  let fl := flagIf (x.isSNaN || y.isSNaN) flagNV
  if x.isNaN ∧ y.isNaN then (f.nan, fl)
  else if x.isNaN then (b, fl)
  else if y.isNaN then (a, fl)
  else if isMax then (if y.below x then a else b, fl)
  else (if x.below y then a else b, fl)

/-- The relation mask (R215). -/
def Fmt.compare (f : Fmt) (a b : Nat) : Nat × FpFlags :=
  let x := f.unpack a
  let y := f.unpack b
  let fl := flagIf (x.isSNaN || y.isSNaN) flagNV
  if x.isNaN ∨ y.isNaN then (8, fl)
  else
    match x.cmp y with
    | .lt => (1, fl)
    | .eq => (2, fl)
    | .gt => (4, fl)

/-- The class mask (R216). -/
def Fmt.classOf (f : Fmt) (a : Nat) : Nat :=
  match f.unpack a with
  | .inf neg => if neg then 2 ^ 0 else 2 ^ 7
  | .nan s => if s then 2 ^ 8 else 2 ^ 9
  | .num neg m _ =>
    if m = 0 then if neg then 2 ^ 3 else 2 ^ 4
    else if m < 2 ^ f.mb then if neg then 2 ^ 2 else 2 ^ 5
    else if neg then 2 ^ 1 else 2 ^ 6

/-! ## Integers (05 R69, 11 R218) -/

/-- The range of an integer of w bits. -/
def intRange (w : Nat) (signed : Bool) : Int × Int :=
  if signed then (-(2 ^ (w - 1) : Nat), (2 ^ (w - 1) : Nat) - 1) else (0, (2 ^ w : Nat) - 1)

/-- A value rounded into an integer of w bits: the integer, the flags, and whether it saturated. -/
def FVal.toInt (w : Nat) (signed : Bool) (mode : Rnd) (x : FVal) : Int × FpFlags × Bool :=
  let r := intRange w signed
  match x with
  | .nan _ => (0, flagNV, true)
  | .inf neg => (if neg then r.1 else r.2, flagNV, true)
  | .num neg m e =>
    let o := roundShift mode neg m e
    let v : Int := if neg then -(o.1 : Int) else o.1
    if v < r.1 then (r.1, flagNV, true)
    else if r.2 < v then (r.2, flagNV, true)
    else (v, flagIf o.2 flagNX, false)

/-- The w low bits of an integer. -/
def intBits (w : Nat) (v : Int) : Nat := (v % (2 ^ w : Nat)).toNat

/-- The integer that w bits hold. -/
def intOfBits (w : Nat) (signed : Bool) (b : Nat) : Int :=
  let v := b % 2 ^ w
  if signed ∧ 2 ^ (w - 1) ≤ v then (v : Int) - (2 ^ w : Nat) else v

/-! ## e^-a (11 R221) -/

/-- The sum of the Taylor terms of e^y over n terms, in p fractional bits, each term rounded down, or up with `ceil`. -/
def expTerms (p y : Nat) (ceil : Bool) : Nat → Nat → Nat → Nat → Nat
  | 0, _, term, acc => if ceil then acc + 2 * term + 1 else acc
  | n + 1, i, term, acc =>
    let d := (i + 1) * 2 ^ p
    let t := if ceil then (term * y + d - 1) / d else term * y / d
    expTerms p y ceil n (i + 1) t (acc + t)

/-- Square k times in p fractional bits. -/
def squares (p : Nat) (ceil : Bool) : Nat → Nat → Nat
  | 0, v => v
  | k + 1, v => squares p ceil k (if ceil then (v * v + 2 ^ p - 1) / 2 ^ p else v * v / 2 ^ p)

/-- A bound of e^y for the exact y = m * 2^e below 1024, in p fractional bits: a lower one, or an upper one with `ceil`. -/
def expBound (p m : Nat) (e : Int) (ceil : Bool) : Nat :=
  let sh := e + p - 12
  let y := if 0 ≤ sh then m * 2 ^ sh.toNat
    else if ceil then (m + 2 ^ (-sh).toNat - 1) / 2 ^ (-sh).toNat else m / 2 ^ (-sh).toNat
  squares p ceil 12 (expTerms p y ceil p 0 (2 ^ p) (2 ^ p))

/-- A bound of e^-a, for a of sign neg and magnitude m * 2^e, as a value: the lower one, or the upper one. -/
def expValue (neg : Bool) (m : Nat) (e : Int) (p : Nat) (upper : Bool) : FVal :=
  if neg then .num false (expBound p m e upper) (-(p : Int)) else FVal.ratio false 1 (expBound p m e (!upper)) p

/-- e^-a for a finite nonzero a, which is never exact: rounded once both bounds of it round alike; the precision doubles
until they do. -/
def expRound (f : Fmt) (mode : Rnd) (neg : Bool) (m : Nat) (e : Int) : Nat → Nat → Nat × FpFlags
  | 0, p =>
    let x := f.round false mode (expValue neg m e p false)
    (x.1, x.2 ||| flagNX)
  | fuel + 1, p =>
    let x := f.round false mode (expValue neg m e p false)
    if x.1 = (f.round false mode (expValue neg m e p true)).1 then (x.1, x.2 ||| flagNX)
    else expRound f mode neg m e fuel (2 * p)

/-- e^-a, correctly rounded, with the special cases of R221. -/
def Fmt.expNeg (f : Fmt) (mode : Rnd) (bits : Nat) : Nat × FpFlags :=
  match f.unpack bits with
  | .nan s => (f.nan, flagIf s flagNV)
  | .inf neg => if neg then f.round false mode (.inf false) else (0, 0#5)
  | .num neg m e =>
    if m = 0 then f.round false mode (.num false 1 0)
    else if (Nat.log2 m : Int) + e < -60 then
      f.round false mode (.num false (if neg then 2 ^ 200 + 1 else 2 ^ 200 - 1) (-200))
    else if 10 ≤ (Nat.log2 m : Int) + e then f.round false mode (.num false 1 (if neg then 3000 else -3000))
    else expRound f mode neg m e 5 160

end Sys2Proof.Machine
end

