-- ==== Sys2Proof/Config.lean ====
section
/-!
DEFINITION. Config.lean: the values the spec leaves open, as constants without a body (logs 7, 10 to 20, 22, 23, 25, 38,
45, 67 and 80 to 82). Nothing can evaluate them, so what is proved holds for every value.
-/

namespace Sys2Proof.Config

/-- An element byte of a converted MX block whose scale is 0xFF (05 R65), by the free-value counter. -/
opaque freeByte : Nat → Byte

/-- The tile a kind-4 copy drains (12 R254), by the free-value counter. -/
opaque freeTile : Nat → BitVec 6

/-- The scan lane that takes a (column, group) pair (13 R262), by the free-value counter. -/
opaque laneOf : Nat → Bool

/-- The ray slot that RAYNEW takes, among the free ones (14 R286), by the free-value counter. -/
opaque raySlot : Nat → Nat

/-- The entry of the pending-launch store that a launch takes, among the free ones (26 R367), by the free-value counter. -/
opaque storeEntry : Nat → Nat

/-- Where a kernel's argument block lies in ULM (02 R21), by the free-value counter. -/
opaque argPlace : Nat → Nat

/-- The outcome of a link's retraining (28 R400), by the free-value counter: full width, half, a quarter, or down. -/
opaque trained : Nat → BitVec 2

/-- Does a hardware step of a start fail (29 R411), by the free-value counter and the step? -/
opaque stepFails : Nat → Nat → Bool

/-- The FP32 result of an operation of the span list or of a native primitive that has no value, as 0 times an infinity
(14 R282, 15 R296 to R298), from its operands. -/
opaque rayInvalid : Machine.FVal → Machine.FVal → BitVec 32

/-- Is a ray that meets an edge exactly inside (15 R295: a top or left edge)? From the edge's ends and the direction. -/
opaque topLeft : List (BitVec 32) → Bool

/-- The parameter, if any, at which a ray hits a triangle with a vertex that is not finite (15 R295): from the vertices, the
origin and the direction. -/
opaque oddTriangle : List (BitVec 32) → Option (BitVec 32)

/-- Is the top of the screen at its small Y (16 R304, 15 R295)? -/
opaque topLow : Bool

/-- The sign of a triangle's normal against the ray's direction on a back-facing hit (15 R295). -/
opaque backSign : Bool

/-- The outcome of an RS codeword with more byte errors than its code corrects (27 R387), from the bits in error:
uncorrectable, or the bits in error after a miscorrection. -/
opaque rsBeyond : List Nat → Option (List Nat)

/-- The entry a TLB gives up when TLBW leaves the choice to it (23 R332), by the free-value counter. -/
opaque tlbVictim : Nat → BitVec 5

/-- The die on which the die-local frames of a GiB of tier 0 lie (06 R84, 27 R382). -/
opaque dieOfFrame : Nat → BitVec 2

/-- The bank that a granule of a stack falls in (27 R382). -/
opaque bankOf : Nat → Nat → Nat

/-- What a read finds through a mapping whose granule, interleave or ECC mode is not the stored one (27 R383): an uncorrectable
error, or these bytes; by the free-value counter and the byte's place in its granule. -/
opaque remapFails : Nat → Bool
opaque remapByte : Nat → Nat → Byte

/-- Which of a byte's values a read through another virtual address returns (07 R108), by the free-value counter. -/
opaque olderValue : Nat → Nat

/-- The peer at the far end of a peer port (27 R392). -/
opaque peerOf : BitVec 4 → BitVec 4

/-- Does a peer refuse an access of this device (28 R398), by the free-value counter? -/
opaque peerRefuses : Nat → Bool

/-- Was a write performed whose reply a link lost as it went down (28 R403), by the free-value counter? -/
opaque lostReply : Nat → Bool

/-- The bytes of the vendor key in the boot ROM, of the device's secret identity, of the vendor's signature of the identity, and of
the secret key for quotes (29 R412), by their place. -/
opaque vendorKey : Nat → Byte
opaque identitySecret : Nat → Byte
opaque identitySignature : Nat → Byte
opaque quoteSecret : Nat → Byte

/-- The random bytes of a signature (29 R412): of the identity's under the key for quotes, and of a quote's by the free-value
counter. -/
opaque certificateRandom : Nat → Byte
opaque quoteRandom : Nat → Nat → Byte

/-- What the training of a start finds (29 R411), by the free-value counter. -/
opaque calibration : Nat → List Byte

/-- Does a block latch its snapshot now, within the window (29 R416), by the free-value counter and the block? -/
opaque latches : Nat → Nat → Bool

/-- Power, temperature and energy of a die as its telemetry reports them (29 R417), by the free-value counter. -/
opaque power : Nat → BitVec 32
opaque temperature : Nat → BitVec 16
opaque energy : Nat → BitVec 64

/-- Words in the save area that only the device reads (23 R336), by the free-value counter. -/
opaque saveByte : Nat → Byte

end Sys2Proof.Config
end

