-- ==== Sys2Proof/Syntax.lean ====
section
/-!
DEFINITION. Syntax.lean: the instructions and events of spec/opcode_table.json, one constructor a row, in the table's order.
Register fields are names, marks are the wait bits of 04 R52, and every other field is the bits the encoding holds;
an instruction's meaning reads them signed or unsigned as its rule says. Events carry the names of what they act on
(95): the number of a request in flight, a core's coordinate pair (01 R10), a stage or die number, a unit's index.
-/

namespace Sys2Proof

/-- The number of an x register (08 R129). -/
abbrev XName := BitVec 5

/-- The number of a vector register (08 R129). -/
abbrev VName := BitVec 4

/-- The number of a mask register (08 R128). -/
abbrev MName := BitVec 3

/-- A source field and its wait bit (04 R52, 08 R128): marked, an empty register traps; unmarked, it is waited for. -/
structure Src where
  reg : XName
  mark : Bool
deriving DecidableEq, Repr

/-- The opcode table of the hardware. -/
inductive Instr where
  /-- ADD (R143): Writes s1 + s2 to d. -/
  | add (d : XName) (a : Src) (b : Src)
  /-- SUB (R143): Writes s1 - s2 to d. -/
  | sub (d : XName) (a : Src) (b : Src)
  /-- AND (R143): Writes s1 AND s2 to d. -/
  | and (d : XName) (a : Src) (b : Src)
  /-- OR (R143): Writes s1 OR s2 to d. -/
  | or (d : XName) (a : Src) (b : Src)
  /-- XOR (R143): Writes s1 XOR s2 to d. -/
  | xor (d : XName) (a : Src) (b : Src)
  /-- ANDN (R143): Writes s1 AND NOT s2 to d. -/
  | andn (d : XName) (a : Src) (b : Src)
  /-- ORN (R143): Writes s1 OR NOT s2 to d. -/
  | orn (d : XName) (a : Src) (b : Src)
  /-- MIN (R143): Writes the signed smaller of s1 and s2 to d. -/
  | min (d : XName) (a : Src) (b : Src)
  /-- MAX (R143): Writes the signed larger of s1 and s2 to d. -/
  | max (d : XName) (a : Src) (b : Src)
  /-- MINU (R143): Writes the unsigned smaller of s1 and s2 to d. -/
  | minu (d : XName) (a : Src) (b : Src)
  /-- MAXU (R143): Writes the unsigned larger of s1 and s2 to d. -/
  | maxu (d : XName) (a : Src) (b : Src)
  /-- SLT (R143): Writes 1 to d if s1 < s2 signed, else 0. -/
  | slt (d : XName) (a : Src) (b : Src)
  /-- SLTU (R143): Writes 1 to d if s1 < s2 unsigned, else 0. -/
  | sltu (d : XName) (a : Src) (b : Src)
  /-- SEQ (R143): Writes 1 to d if s1 equals s2, else 0. -/
  | seq (d : XName) (a : Src) (b : Src)
  /-- SEL (R143): Writes s1 if the old d is nonzero, else s2. -/
  | sel (d : XName) (a : Src) (b : Src)
  /-- ABS (R143): Writes the signed absolute value of s1 to d. -/
  | abs (d : XName) (a : Src)
  /-- ADDI (R144): Writes s1 + sign-extended imm11 to d. -/
  | addi (d : XName) (a : Src) (i : BitVec 11)
  /-- ANDI (R144): Writes s1 AND sign-extended imm11 to d. -/
  | andi (d : XName) (a : Src) (i : BitVec 11)
  /-- ORI (R144): Writes s1 OR sign-extended imm11 to d. -/
  | ori (d : XName) (a : Src) (i : BitVec 11)
  /-- XORI (R144): Writes s1 XOR sign-extended imm11 to d. -/
  | xori (d : XName) (a : Src) (i : BitVec 11)
  /-- SLTI (R144): Writes 1 to d if s1 < imm signed, else 0. -/
  | slti (d : XName) (a : Src) (i : BitVec 11)
  /-- SLTIU (R144): Writes 1 to d if s1 < sign-extended imm unsigned, else 0. -/
  | sltiu (d : XName) (a : Src) (i : BitVec 11)
  /-- LDI (R144): Writes the sign-extended imm11 to d. -/
  | ldi (d : XName) (i : BitVec 11)
  /-- LDI_L (R145): Long instruction that writes a sign-extended 40-bit immediate to d. -/
  | ldiL (d : XName) (i : BitVec 40)
  /-- SHL (R146): Shifts s1 left by s2[5:0]. -/
  | shl (d : XName) (a : Src) (b : Src)
  /-- SHR (R146): Shifts s1 right logically by s2[5:0]. -/
  | shr (d : XName) (a : Src) (b : Src)
  /-- SRA (R146): Shifts s1 right arithmetically by s2[5:0]. -/
  | sra (d : XName) (a : Src) (b : Src)
  /-- ROT (R146): Rotates s1 left by s2[5:0]. -/
  | rot (d : XName) (a : Src) (b : Src)
  /-- FSHL (R147): Funnel-shifts the old d and s1 left, d supplying the high half. -/
  | fshl (d : XName) (a : Src) (b : Src)
  /-- FSHR (R147): Funnel-shifts s1 and the old d right, d supplying the low half. -/
  | fshr (d : XName) (a : Src) (b : Src)
  /-- SHLI (R146): Shifts s1 left by a 6-bit immediate. -/
  | shli (d : XName) (a : Src) (i : BitVec 6)
  /-- SHRI (R146): Shifts s1 right logically by a 6-bit immediate. -/
  | shri (d : XName) (a : Src) (i : BitVec 6)
  /-- SRAI (R146): Shifts s1 right arithmetically by a 6-bit immediate. -/
  | srai (d : XName) (a : Src) (i : BitVec 6)
  /-- ROTI (R146): Rotates s1 left by a 6-bit immediate. -/
  | roti (d : XName) (a : Src) (i : BitVec 6)
  /-- CLZ (R146): Counts the leading zero bits of s1. -/
  | clz (d : XName) (a : Src)
  /-- CTZ (R146): Counts the trailing zero bits of s1. -/
  | ctz (d : XName) (a : Src)
  /-- POPC (R146): Counts the 1 bits of s1. -/
  | popc (d : XName) (a : Src)
  /-- BREV (R146): Reverses the 64 bits of s1. -/
  | brev (d : XName) (a : Src)
  /-- SEXT (R146): Sign-extends the low w bits of s1. -/
  | sext (d : XName) (a : Src) (n : BitVec 6)
  /-- ZEXT (R146): Zero-extends the low w bits of s1. -/
  | zext (d : XName) (a : Src) (n : BitVec 6)
  /-- BEXT (R148): Extracts a bit field of s1 at the position and length in s2. -/
  | bext (d : XName) (a : Src) (b : Src)
  /-- BINS (R148): Inserts the low bits of s1 into d at the position and length in s2. -/
  | bins (d : XName) (a : Src) (b : Src)
  /-- MUL (R149): Writes the low 64 bits of s1 x s2. -/
  | mul (d : XName) (a : Src) (b : Src)
  /-- MULH (R149): Writes the high 64 bits of the signed product. -/
  | mulh (d : XName) (a : Src) (b : Src)
  /-- MULHU (R149): Writes the high 64 bits of the unsigned product. -/
  | mulhu (d : XName) (a : Src) (b : Src)
  /-- MULHM (R149): Writes the high 64 bits of the signed-by-unsigned product. -/
  | mulhm (d : XName) (a : Src) (b : Src)
  /-- DIV (R150): Starts a signed division whose quotient fills d late. -/
  | div (d : XName) (a : Src) (b : Src)
  /-- DIVU (R150): Starts an unsigned division whose quotient fills d late. -/
  | divu (d : XName) (a : Src) (b : Src)
  /-- REM (R150): Starts a signed remainder whose result fills d late. -/
  | rem (d : XName) (a : Src) (b : Src)
  /-- REMU (R150): Starts an unsigned remainder whose result fills d late. -/
  | remu (d : XName) (a : Src) (b : Src)
  /-- CSETB (R154): Narrows capability s1 to s2 bytes from its cursor. -/
  | csetb (d : XName) (a : Src) (b : Src)
  /-- CPERM (R155): Masks the permissions of s1 and optionally seals it. -/
  | cperm (d : XName) (a : Src) (b : Src)
  /-- CINC (R156): Steps the cursor of capability s1 by s2. -/
  | cinc (d : XName) (a : Src) (b : Src)
  /-- CMESH (R157): Builds a mesh capability from a linear ULM capability and a rectangle. -/
  | cmesh (d : XName) (a : Src) (b : Src)
  /-- CTEST (R158): Writes the number of the first dereference check an access would fail. -/
  | ctest (d : XName) (a : Src) (b : Src)
  /-- CCLR (R159): Copies s1 to d with the tag cleared. -/
  | cclr (d : XName) (a : Src)
  /-- CINCI (R156): Steps the cursor of capability s1 by an immediate. -/
  | cinci (d : XName) (a : Src) (i : BitVec 11)
  /-- CGET (R160): Writes a selected capability field of s1 to d. -/
  | cget (d : XName) (f : BitVec 11) (a : Src)
  /-- BEQ (R161): Branches when s1 equals s2. -/
  | beq (a : Src) (b : Src) (o : BitVec 10)
  /-- BNE (R161): Branches when s1 differs from s2. -/
  | bne (a : Src) (b : Src) (o : BitVec 10)
  /-- BLT (R161): Branches when s1 < s2 signed. -/
  | blt (a : Src) (b : Src) (o : BitVec 10)
  /-- BGE (R161): Branches when s1 >= s2 signed. -/
  | bge (a : Src) (b : Src) (o : BitVec 10)
  /-- BLTU (R161): Branches when s1 < s2 unsigned. -/
  | bltu (a : Src) (b : Src) (o : BitVec 10)
  /-- BGEU (R161): Branches when s1 >= s2 unsigned. -/
  | bgeu (a : Src) (b : Src) (o : BitVec 10)
  /-- JAL (R162): Writes pc + 4 to d and jumps by a halfword offset. -/
  | jal (d : XName) (o : BitVec 20)
  /-- B_L (R163): Long conditional branch over any distance within ULM. -/
  | bL (c : BitVec 3) (a : Src) (b : Src) (o : BitVec 30)
  /-- JR (R164): Jumps to the target in s1. -/
  | jr (a : Src)
  /-- JALR (R164): Writes pc + 4 to d and jumps to the target in s1. -/
  | jalr (d : XName) (a : Src)
  /-- DONE (R171): Ends the task, or returns from an inline spawn. -/
  | done
  /-- YIELD (R172): Gives up the thread's issue slot and may swap in another slot. -/
  | yield
  /-- NOP (R170): Changes nothing but the pc. -/
  | nop
  /-- WAITF (R173): Marks d empty until a register-window write fills it. -/
  | waitf (d : XName)
  /-- LOOP (R166): Pushes a hardware loop whose count comes from s1. -/
  | loop (a : Src) (e : BitVec 11)
  /-- TRAP (R174): Raises software trap with the given code. -/
  | trap (c : BitVec 11)
  /-- LOOPI (R167): Pushes a hardware loop with an immediate count. -/
  | loopi (n : BitVec 13) (e : BitVec 11)
  /-- LB (R177): Loads a sign-extended byte. -/
  | lb (d : XName) (a : Src) (i : BitVec 11)
  /-- LH (R177): Loads a sign-extended halfword. -/
  | lh (d : XName) (a : Src) (i : BitVec 11)
  /-- LW (R177): Loads a sign-extended word. -/
  | lw (d : XName) (a : Src) (i : BitVec 11)
  /-- LD (R177): Loads a doubleword. -/
  | ld (d : XName) (a : Src) (i : BitVec 11)
  /-- LBU (R177): Loads a zero-extended byte. -/
  | lbu (d : XName) (a : Src) (i : BitVec 11)
  /-- LHU (R177): Loads a zero-extended halfword. -/
  | lhu (d : XName) (a : Src) (i : BitVec 11)
  /-- LWU (R177): Loads a zero-extended word. -/
  | lwu (d : XName) (a : Src) (i : BitVec 11)
  /-- LQ (R177): Loads 16 bytes and, under R50, their tag. -/
  | lq (d : XName) (a : Src) (i : BitVec 11)
  /-- SB (R179): Stores the low byte of the data register. -/
  | sb (a : Src) (b : Src) (i : BitVec 8)
  /-- SH (R179): Stores the low halfword of the data register. -/
  | sh (a : Src) (b : Src) (i : BitVec 8)
  /-- SW (R179): Stores the low word of the data register. -/
  | sw (a : Src) (b : Src) (i : BitVec 8)
  /-- SD (R179): Stores the low doubleword of the data register. -/
  | sd (a : Src) (b : Src) (i : BitVec 8)
  /-- SQ (R179): Stores 16 bytes and, under R50, their tag. -/
  | sq (a : Src) (b : Src) (i : BitVec 8)
  /-- SB_POSTINC (R180): Stores a byte at the cursor and advances the base. -/
  | sbPostinc (a : Src) (b : Src) (i : BitVec 8)
  /-- SH_POSTINC (R180): Stores a halfword at the cursor and advances the base. -/
  | shPostinc (a : Src) (b : Src) (i : BitVec 8)
  /-- SW_POSTINC (R180): Stores a word at the cursor and advances the base. -/
  | swPostinc (a : Src) (b : Src) (i : BitVec 8)
  /-- SD_POSTINC (R180): Stores a doubleword at the cursor and advances the base. -/
  | sdPostinc (a : Src) (b : Src) (i : BitVec 8)
  /-- SQ_POSTINC (R180): Stores 16 bytes at the cursor and advances the base. -/
  | sqPostinc (a : Src) (b : Src) (i : BitVec 8)
  /-- LB_POSTINC (R180): Loads a sign-extended byte at the cursor and advances the base. -/
  | lbPostinc (d : XName) (a : Src) (i : BitVec 8)
  /-- LH_POSTINC (R180): Loads a sign-extended halfword at the cursor and advances the base. -/
  | lhPostinc (d : XName) (a : Src) (i : BitVec 8)
  /-- LW_POSTINC (R180): Loads a sign-extended word at the cursor and advances the base. -/
  | lwPostinc (d : XName) (a : Src) (i : BitVec 8)
  /-- LD_POSTINC (R180): Loads a doubleword at the cursor and advances the base. -/
  | ldPostinc (d : XName) (a : Src) (i : BitVec 8)
  /-- LBU_POSTINC (R180): Loads a zero-extended byte at the cursor and advances the base. -/
  | lbuPostinc (d : XName) (a : Src) (i : BitVec 8)
  /-- LHU_POSTINC (R180): Loads a zero-extended halfword at the cursor and advances the base. -/
  | lhuPostinc (d : XName) (a : Src) (i : BitVec 8)
  /-- LWU_POSTINC (R180): Loads a zero-extended word at the cursor and advances the base. -/
  | lwuPostinc (d : XName) (a : Src) (i : BitVec 8)
  /-- LQ_POSTINC (R180): Loads 16 bytes at the cursor and advances the base. -/
  | lqPostinc (d : XName) (a : Src) (i : BitVec 8)
  /-- LEA (R182): Adds a scaled offset to s1, keeping a capability's tag. -/
  | lea (d : XName) (a : Src) (s : BitVec 2) (i : BitVec 10)
  /-- SBIND (R183): Binds a stream register to a reading generator over s1. -/
  | sbind (d : XName) (g : BitVec 2) (a : Src) (e : BitVec 2)
  /-- SBIND_A (R183): Binds a stream register to an appending generator over s1. -/
  | sbindA (d : XName) (g : BitVec 2) (a : Src) (e : BitVec 2)
  /-- SUNBIND (R185): Completes pending appends and releases the register's generator. -/
  | sunbind (d : XName)
  /-- SSTAT (R186): Writes a generator's status to d. -/
  | sstat (d : XName) (g : BitVec 2)
  /-- STREAM_FETCH (R184): A reading generator's fetched element arrives and sets its register full. -/
  | streamFetch (core : Nat) (ctx : Nat) (gen : Nat)
  /-- DPULL (R187): Takes a DRAM queue entry that copies DRAM bytes into ULM. -/
  | dpull (d : XName) (c : BitVec 6) (a : Src) (b : Src)
  /-- DPUSH (R187): Takes a DRAM queue entry that copies ULM bytes to DRAM. -/
  | dpush (d : XName) (c : BitVec 6) (a : Src) (b : Src)
  /-- DGATH (R188): Takes a DRAM queue entry that gathers indexed rows into ULM. -/
  | dgath (d : XName) (c : BitVec 6) (a : Src) (b : Src)
  /-- CWAIT (R190): Waits until a counter reaches an immediate. -/
  | cwait (c : BitVec 6) (i : BitVec 11)
  /-- CWAIT_REG (R190): Waits until a counter reaches s1[31:0]. -/
  | cwaitReg (c : BitVec 6) (a : Src)
  /-- CADD (R190): Adds a signed immediate to a counter. -/
  | cadd (c : BitVec 6) (i : BitVec 11)
  /-- CADD_REG (R190): Adds s1[31:0] to a counter. -/
  | caddReg (c : BitVec 6) (a : Src)
  /-- CSET (R190): Sets a counter's value to an immediate. -/
  | cset (c : BitVec 6) (i : BitVec 11)
  /-- CSET_REG (R190): Sets a counter's value and trigger class from s1. -/
  | csetReg (c : BitVec 6) (a : Src)
  /-- CRD (R190): Reads a counter's trigger class and value into d. -/
  | crd (d : XName) (c : BitVec 6)
  /-- FENCE_C (R193): Core-scope fence holding Q events until P events are performed. -/
  | fenceC (p : BitVec 5) (q : BitVec 5)
  /-- FENCE_S (R193): Stage-scope fence. -/
  | fenceS (p : BitVec 5) (q : BitVec 5)
  /-- FENCE_D (R193): Die-scope fence. -/
  | fenceD (p : BitVec 5) (q : BitVec 5)
  /-- FENCE_P (R193): Package-scope fence. -/
  | fenceP (p : BitVec 5) (q : BitVec 5)
  /-- FENCE_Y (R193): System-scope fence. -/
  | fenceY (p : BitVec 5) (q : BitVec 5)
  /-- AFENCE (R194): Waits for earlier DRAM writes at their physical bytes and drops alias-held values. -/
  | afence
  /-- IFENCE (R194): Discards the fetch buffer. -/
  | ifence
  /-- AADD (R195): Atomic add returning the old value. -/
  | aadd (d : XName) (a : Src) (b : Src) (z : Bool)
  /-- AAND (R195): Atomic AND returning the old value. -/
  | aand (d : XName) (a : Src) (b : Src) (z : Bool)
  /-- AOR (R195): Atomic OR returning the old value. -/
  | aor (d : XName) (a : Src) (b : Src) (z : Bool)
  /-- AXOR (R195): Atomic XOR returning the old value. -/
  | axor (d : XName) (a : Src) (b : Src) (z : Bool)
  /-- AMIN (R195): Atomic signed minimum returning the old value. -/
  | amin (d : XName) (a : Src) (b : Src) (z : Bool)
  /-- AMAX (R195): Atomic signed maximum returning the old value. -/
  | amax (d : XName) (a : Src) (b : Src) (z : Bool)
  /-- AMINU (R195): Atomic unsigned minimum returning the old value. -/
  | aminu (d : XName) (a : Src) (b : Src) (z : Bool)
  /-- AMAXU (R195): Atomic unsigned maximum returning the old value. -/
  | amaxu (d : XName) (a : Src) (b : Src) (z : Bool)
  /-- ASWP (R195): Atomic swap returning the old value. -/
  | aswp (d : XName) (a : Src) (b : Src) (z : Bool)
  /-- ACAS (R195): Atomic compare-and-swap against d's expected value. -/
  | acas (d : XName) (a : Src) (b : Src) (z : Bool)
  /-- AFADD (R198): Atomic floating-point add in RNE returning the old value. -/
  | afadd (d : XName) (a : Src) (b : Src) (z : Bool)
  /-- AFMIN (R198): Atomic floating-point minimumNumber. -/
  | afmin (d : XName) (a : Src) (b : Src) (z : Bool)
  /-- AFMAX (R198): Atomic floating-point maximumNumber. -/
  | afmax (d : XName) (a : Src) (b : Src) (z : Bool)
  /-- RADD (R195): Atomic add with no returned value. -/
  | radd (a : Src) (b : Src) (z : Bool)
  /-- AADD_TZ (R199): 64-bit atomic add that starts an activation when the result is zero. -/
  | aaddTz (d : XName) (a : Src) (b : Src) (k : BitVec 6)
  /-- RADD_TZ (R199): 64-bit non-returning add that starts an activation when the result is zero. -/
  | raddTz (a : Src) (b : Src) (k : BitVec 6)
  /-- ULM_ATOMIC (R196): A ULM atomic request reaches the head of the home core's inbox and is performed. -/
  | ulmAtomic (core : Nat)
  /-- HOUSE_ATOMIC (R392): A house core performs a DRAM atomic, VBMIN or raster sample write on its granule. -/
  | houseAtomic (id : Nat)
  /-- ATOMIC_REPLY (R198): An atomic's old value and FP flags return and fill d. -/
  | atomicReply (id : Nat)
  /-- SEND (R200): Sends a 16-byte message of a class to a target core. -/
  | send (d : XName) (a : Src) (k : BitVec 8)
  /-- SEND_L (R201): Long send of a payload up to 256 bytes, optionally with a reply register. -/
  | sendL (d : XName) (b : Src) (k : BitVec 8) (a : Src) (n : BitVec 8) (r : Bool)
  /-- BIND (R203): Binds a class to a handler and region. -/
  | bind (d : XName) (a : Src) (i : BitVec 11)
  /-- REBIND (R203): Replaces a class's binding in one step. -/
  | rebind (d : XName) (a : Src) (i : BitVec 11)
  /-- UNBIND (R203): Removes a class's binding. -/
  | unbind (a : Src)
  /-- SPAWN (R204): Starts a thread on a named core or runs it inline. -/
  | spawn (d : XName) (a : Src) (b : Src)
  /-- LAUNCH (R205): Submits a kernel to the pending-launch store and returns a ticket. -/
  | launch (d : XName) (a : Src) (b : Src)
  /-- JOIN (R206): Joins a group at its home core. -/
  | join (a : Src)
  /-- LEAVE (R206): Leaves a group or cancels a pending join. -/
  | leave (a : Src)
  /-- BARW (R206): Arrives and waits for the phase to complete. -/
  | barw (a : Src)
  /-- BARA (R206): Arrives without waiting for the phase. -/
  | bara (a : Src)
  /-- BARD (R206): Arrives and drops from later phases. -/
  | bard (a : Src)
  /-- BARQ (R207): Queries a group's phase and the caller's membership. -/
  | barq (d : XName) (a : Src)
  /-- QUIESCE (R208): Holds the thread until the partition is quiescent. -/
  | quiesce
  /-- GROUP_REQUEST (R39): The home core handles one arriving group request and answers it. -/
  | groupRequest (id : Nat)
  /-- GROUP_ANSWER (R206): A group answer or phase wake reaches the held thread and releases it. -/
  | groupAnswer (id : Nat)
  /-- FADD (R211): Scalar FP add. -/
  | fadd (d : XName) (a : Src) (b : Src) (t : BitVec 2) (r : BitVec 3)
  /-- FSUB (R211): Scalar FP subtract. -/
  | fsub (d : XName) (a : Src) (b : Src) (t : BitVec 2) (r : BitVec 3)
  /-- FMUL (R211): Scalar FP multiply. -/
  | fmul (d : XName) (a : Src) (b : Src) (t : BitVec 2) (r : BitVec 3)
  /-- FDIV (R211): Scalar FP divide. -/
  | fdiv (d : XName) (a : Src) (b : Src) (t : BitVec 2) (r : BitVec 3)
  /-- FSQRT (R211): Scalar FP square root. -/
  | fsqrt (d : XName) (a : Src) (t : BitVec 2) (r : BitVec 3)
  /-- FMA (R213): Scalar fused multiply-add into the old d. -/
  | fma (d : XName) (a : Src) (b : Src) (t : BitVec 2) (r : BitVec 3)
  /-- FNMA (R213): Scalar fused old d minus product. -/
  | fnma (d : XName) (a : Src) (b : Src) (t : BitVec 2) (r : BitVec 3)
  /-- FMIN (R214): Scalar minimumNumber. -/
  | fmin (d : XName) (a : Src) (b : Src) (t : BitVec 2)
  /-- FMAX (R214): Scalar maximumNumber. -/
  | fmax (d : XName) (a : Src) (b : Src) (t : BitVec 2)
  /-- FCMP (R215): Writes a one-hot relation mask. -/
  | fcmp (d : XName) (a : Src) (b : Src) (t : BitVec 2)
  /-- FCLASS (R216): Writes a one-hot class mask. -/
  | fclass (d : XName) (a : Src) (t : BitVec 2)
  /-- FMVX_J (R211): Writes s1 with the sign of s2. -/
  | fmvxJ (d : XName) (a : Src) (b : Src) (t : BitVec 2)
  /-- FMVX_N (R211): Writes s1 with the inverted sign of s2. -/
  | fmvxN (d : XName) (a : Src) (b : Src) (t : BitVec 2)
  /-- FMVX_X (R211): Writes s1 with sign s1 XOR sign s2. -/
  | fmvxX (d : XName) (a : Src) (b : Src) (t : BitVec 2)
  /-- FCVT (R218): Converts between FP formats. -/
  | fcvt (d : XName) (a : Src) (p : BitVec 3) (q : BitVec 3) (r : BitVec 3)
  /-- FCVT_INT (R218): Converts an FP value to an integer format. -/
  | fcvtInt (d : XName) (a : Src) (p : BitVec 3) (q : BitVec 3) (r : BitVec 3)
  /-- FCVTF (R218): Converts an integer to an FP format. -/
  | fcvtf (d : XName) (a : Src) (p : BitVec 3) (q : BitVec 3) (r : BitVec 3)
  /-- VADD (R220): Vector integer add. -/
  | vadd (d : VName) (a : VName) (b : VName) (w : Bool) (m : MName) (e : BitVec 2)
  /-- VSUB (R220): Vector integer subtract. -/
  | vsub (d : VName) (a : VName) (b : VName) (w : Bool) (m : MName) (e : BitVec 2)
  /-- VMUL (R220): Vector low multiply. -/
  | vmul (d : VName) (a : VName) (b : VName) (w : Bool) (m : MName) (e : BitVec 2)
  /-- VMULH (R220): Vector signed high multiply. -/
  | vmulh (d : VName) (a : VName) (b : VName) (w : Bool) (m : MName) (e : BitVec 2)
  /-- VMIN (R220): Vector signed minimum. -/
  | vmin (d : VName) (a : VName) (b : VName) (w : Bool) (m : MName) (e : BitVec 2)
  /-- VMAX (R220): Vector signed maximum. -/
  | vmax (d : VName) (a : VName) (b : VName) (w : Bool) (m : MName) (e : BitVec 2)
  /-- VMINU (R220): Vector unsigned minimum. -/
  | vminu (d : VName) (a : VName) (b : VName) (w : Bool) (m : MName) (e : BitVec 2)
  /-- VMAXU (R220): Vector unsigned maximum. -/
  | vmaxu (d : VName) (a : VName) (b : VName) (w : Bool) (m : MName) (e : BitVec 2)
  /-- VAND (R220): Vector AND. -/
  | vand (d : VName) (a : VName) (b : VName) (w : Bool) (m : MName) (e : BitVec 2)
  /-- VOR (R220): Vector OR. -/
  | vor (d : VName) (a : VName) (b : VName) (w : Bool) (m : MName) (e : BitVec 2)
  /-- VXOR (R220): Vector XOR. -/
  | vxor (d : VName) (a : VName) (b : VName) (w : Bool) (m : MName) (e : BitVec 2)
  /-- VSHL (R220): Vector shift left. -/
  | vshl (d : VName) (a : VName) (b : VName) (w : Bool) (m : MName) (e : BitVec 2)
  /-- VSHR (R220): Vector logical shift right. -/
  | vshr (d : VName) (a : VName) (b : VName) (w : Bool) (m : MName) (e : BitVec 2)
  /-- VSRA (R220): Vector arithmetic shift right. -/
  | vsra (d : VName) (a : VName) (b : VName) (w : Bool) (m : MName) (e : BitVec 2)
  /-- VFSHL (R220): Vector funnel shift left with the old vd. -/
  | vfshl (d : VName) (a : VName) (b : VName) (w : Bool) (m : MName) (e : BitVec 2)
  /-- VFSHR (R220): Vector funnel shift right with the old vd. -/
  | vfshr (d : VName) (a : VName) (b : VName) (w : Bool) (m : MName) (e : BitVec 2)
  /-- VCLZ (R220): Vector count leading zeros. -/
  | vclz (d : VName) (a : VName) (w : Bool) (m : MName) (e : BitVec 2)
  /-- VPOPC (R220): Vector population count. -/
  | vpopc (d : VName) (a : VName) (w : Bool) (m : MName) (e : BitVec 2)
  /-- VABS (R220): Vector signed absolute value. -/
  | vabs (d : VName) (a : VName) (w : Bool) (m : MName) (e : BitVec 2)
  /-- VSADD (R220): Vector signed saturating add. -/
  | vsadd (d : VName) (a : VName) (b : VName) (w : Bool) (m : MName) (e : BitVec 2)
  /-- VSSUB (R220): Vector signed saturating subtract. -/
  | vssub (d : VName) (a : VName) (b : VName) (w : Bool) (m : MName) (e : BitVec 2)
  /-- VFADD (R221): Vector FP add. -/
  | vfadd (d : VName) (a : VName) (b : VName) (w : Bool) (r : BitVec 3) (m : MName) (e : BitVec 2)
  /-- VFSUB (R221): Vector FP subtract. -/
  | vfsub (d : VName) (a : VName) (b : VName) (w : Bool) (r : BitVec 3) (m : MName) (e : BitVec 2)
  /-- VFMUL (R221): Vector FP multiply. -/
  | vfmul (d : VName) (a : VName) (b : VName) (w : Bool) (r : BitVec 3) (m : MName) (e : BitVec 2)
  /-- VFMA (R221): Vector fused multiply-add into the old vd. -/
  | vfma (d : VName) (a : VName) (b : VName) (w : Bool) (r : BitVec 3) (m : MName) (e : BitVec 2)
  /-- VFMIN (R221): Vector minimumNumber. -/
  | vfmin (d : VName) (a : VName) (b : VName) (w : Bool) (m : MName) (e : BitVec 2)
  /-- VFMAX (R221): Vector maximumNumber. -/
  | vfmax (d : VName) (a : VName) (b : VName) (w : Bool) (m : MName) (e : BitVec 2)
  /-- VFEXPN (R221): Vector e to the minus a, correctly rounded. -/
  | vfexpn (d : VName) (a : VName) (w : Bool) (r : BitVec 3) (m : MName) (e : BitVec 2)
  /-- VFRCP (R221): Vector reciprocal, correctly rounded. -/
  | vfrcp (d : VName) (a : VName) (w : Bool) (r : BitVec 3) (m : MName) (e : BitVec 2)
  /-- VFCVT (R222): Vector conversion to an IEEE FP format. -/
  | vfcvt (d : VName) (a : VName) (s : VName) (w : Bool) (r : BitVec 3) (m : MName) (e : BitVec 2)
  /-- VFCVT_FP8 (R222): Vector conversion to an FP8 format. -/
  | vfcvtFp8 (d : VName) (a : VName) (s : VName) (w : Bool) (r : BitVec 3) (m : MName) (e : BitVec 2)
  /-- VFCVT_INT (R222): Vector conversion to a signed integer format. -/
  | vfcvtInt (d : VName) (a : VName) (s : VName) (w : Bool) (r : BitVec 3) (m : MName) (e : BitVec 2)
  /-- VFCVT_UINT (R222): Vector conversion to an unsigned integer format. -/
  | vfcvtUint (d : VName) (a : VName) (s : VName) (w : Bool) (r : BitVec 3) (m : MName) (e : BitVec 2)
  /-- VLD (R226): Loads 64 aligned bytes into active elements of vd. -/
  | vld (d : VName) (a : Src) (e : BitVec 2) (m : BitVec 2) (k : MName)
  /-- VST (R226): Stores active elements of vs to 64 aligned bytes. -/
  | vst (a : Src) (s : VName) (w : Bool) (e : BitVec 2) (m : BitVec 2) (k : MName)
  /-- VLDU (R226): Loads the masked bytes at any address. -/
  | vldu (d : VName) (a : Src) (m : BitVec 2) (k : MName)
  /-- VSTU (R226): Stores the masked bytes at any address. -/
  | vstu (a : Src) (s : VName) (w : Bool) (m : BitVec 2) (k : MName)
  /-- VGATH (R226): Gathers indexed elements into vd. -/
  | vgath (d : VName) (a : Src) (s : VName) (w : Bool) (e : BitVec 2) (k : MName)
  /-- VSCAT (R226): Scatters elements of vd to indexed addresses. -/
  | vscat (d : VName) (a : Src) (s : VName) (w : Bool) (e : BitVec 2) (k : MName)
  /-- VBCAST (R226): Broadcasts one memory element to every element of vd. -/
  | vbcast (d : VName) (a : Src) (e : BitVec 2) (i : BitVec 4)
  /-- VPERM (R227): Permutes elements of vs1 by indices in vs2. -/
  | vperm (d : VName) (a : VName) (b : VName) (w : Bool) (m : MName) (e : BitVec 2)
  /-- VREDADD (R227): Sums active elements into element 0. -/
  | vredadd (d : VName) (a : VName) (w : Bool) (m : MName) (e : BitVec 2)
  /-- VREDMAX (R227): Signed maximum of active elements into element 0. -/
  | vredmax (d : VName) (a : VName) (w : Bool) (m : MName) (e : BitVec 2)
  /-- VREDMIN (R227): Signed minimum of active elements into element 0. -/
  | vredmin (d : VName) (a : VName) (w : Bool) (m : MName) (e : BitVec 2)
  /-- VGMAX (R228): Unsigned maximum within each group of G elements. -/
  | vgmax (d : VName) (g : BitVec 2) (a : VName) (w : Bool) (m : MName) (e : BitVec 2)
  /-- VGMIN (R228): Unsigned minimum within each group of G elements. -/
  | vgmin (d : VName) (g : BitVec 2) (a : VName) (w : Bool) (m : MName) (e : BitVec 2)
  /-- VSCAN (R227): Inclusive prefix sum of active elements. -/
  | vscan (d : VName) (a : VName) (w : Bool) (m : MName) (e : BitVec 2)
  /-- VSEL (R227): Selects each element from vs1 or vs2 by the mask. -/
  | vsel (d : VName) (a : VName) (b : VName) (w : Bool) (m : MName) (e : BitVec 2)
  /-- VCMP (R229): Compares elements and writes a mask register. -/
  | vcmp (d : BitVec 3) (c : BitVec 3) (a : VName) (b : VName) (w : Bool) (m : MName) (e : BitVec 2)
  /-- MAND (R227): Mask AND. -/
  | mand (d : BitVec 3) (a : BitVec 3) (b : BitVec 3)
  /-- MOR (R227): Mask OR. -/
  | mor (d : BitVec 3) (a : BitVec 3) (b : BitVec 3)
  /-- MXOR (R227): Mask XOR. -/
  | mxor (d : BitVec 3) (a : BitVec 3) (b : BitVec 3)
  /-- MNOT (R227): Mask NOT. -/
  | mnot (d : BitVec 3) (a : BitVec 3)
  /-- VSLIDE (R227): Slides elements of vs by a signed count from xs. -/
  | vslide (d : VName) (a : Src) (s : VName) (w : Bool) (e : BitVec 2) (k : MName)
  /-- VMOVX (R227): Moves one vector element to an x register. -/
  | vmovx (d : XName) (l : BitVec 4) (s : VName) (w : Bool) (e : BitVec 2)
  /-- VINS (R227): Inserts the low bits of xs into one element of vd. -/
  | vins (d : VName) (l : BitVec 4) (a : Src) (e : BitVec 2)
  /-- MPOP (R227): Counts the set bits of a mask register. -/
  | mpop (d : XName) (s : VName)
  /-- MFIRST (R227): Finds the lowest set bit of a mask register. -/
  | mfirst (d : XName) (s : VName)
  /-- MGEN (R227): Writes xs[63:0] to a mask register. -/
  | mgen (d : VName) (a : Src)
  /-- TDECL (R232): Declares a tile table entry over a capability's extent. -/
  | tdecl (f : BitVec 4) (a : Src) (t : Bool) (u : BitVec 6)
  /-- TFREE (R233): Frees a core-owned tile entry. -/
  | tfree (t : Bool) (u : BitVec 6)
  /-- TGIVE (R237): Appends a tile as a stream segment and flips its owner to the copy engine. -/
  | tgive (a : Src) (t : Bool) (u : BitVec 6)
  /-- TTAKE (R238): Waits for a tile or withdraws an unplayed segment. -/
  | ttake (t : Bool) (u : BitVec 6)
  /-- TWAIT (R238): Waits until a tile is ready and core-owned. -/
  | twait (t : Bool) (u : BitVec 6)
  /-- TSTAT (R234): Reads a tile table entry into d. -/
  | tstat (d : XName) (u : BitVec 6)
  /-- TFMT (R235): Writes a bank format register from user mode. -/
  | tfmt (a : Src)
  /-- TTRL (R236): Writes or clears a tile's quantised-tile trailer. -/
  | ttrl (t : Bool) (u : BitVec 6) (o : Bool)
  /-- TSUB (R245): Submits a tile-task record to the stage tile scheduler. -/
  | tsub (a : Src)
  /-- TQRY (R250): Queries a task's status by tag. -/
  | tqry (d : XName) (a : Src)
  /-- XCOPY (R253): Sends a copy command to the stage's copy engine. -/
  | xcopy (a : Src)
  /-- SKBC (R252): Broadcasts 16 FP32 lanes into a scale-keeper buffer. -/
  | skbc (a : Src) (b : VName) (w : Bool)
  /-- XSTRM (R240): Appends a DRAM extent as a stream segment. -/
  | xstrm (a : Src) (b : Src)
  /-- SBPLD (R270): Loads and pins an SBP block in an engine's table slot. -/
  | sbpld (a : Src) (b : Src)
  /-- SBPRD (R271): Reads SBP engine lane or slot state. -/
  | sbprd (d : XName) (a : Src)
  /-- SEGMENT_PLAY (R239): The copy engine plays a stream segment into a running task's FIFOs. -/
  | segmentPlay (stage : Nat) (stream : Nat)
  /-- SEGMENT_RETURN (R237): After its last play a tile segment returns ready to its core and bumps its counter. -/
  | segmentReturn (id : Nat)
  /-- TASK_START (R246): The scheduler starts a ready, admitted task on an engine and claims its streams. -/
  | taskStart (stage : Nat) (engine : Nat)
  /-- PROMOTION_BLOCK (R75): An engine adds one promotion block, or SBP group, of products to the region once operands arrive. -/
  | promotionBlock (stage : Nat) (engine : Nat)
  /-- TASK_COMPLETE (R247): A task finishes its last block, sets complete and bumps its counter. -/
  | taskComplete (stage : Nat) (engine : Nat)
  /-- TASK_DRAIN (R248): A task's region drains through the copy engine into the drain tile when it is available. -/
  | taskDrain (stage : Nat) (engine : Nat)
  /-- COPY_COMMAND_START (R254): The copy engine starts an accepted command and reads its source. -/
  | copyCommandStart (stage : Nat)
  /-- COPY_DESTINATION_FILL (R255): A copy destination is filled once its tile is empty or ready and core-owned. -/
  | copyDestinationFill (stage : Nat) (cmd : Nat) (dest : Nat)
  /-- COPY_COMMAND_COMPLETE (R255): All destinations ended; the issuer counter and status mask are written. -/
  | copyCommandComplete (stage : Nat) (cmd : Nat)
  /-- RAYNEW (R286): Opens a ray slot from a descriptor; the handle fills d later. -/
  | raynew (d : XName) (a : Src)
  /-- RAYGO (R286): Sets an open ray running and starts its walker. -/
  | raygo (a : Src)
  /-- SPSRC (R286): Registers a program source on an open ray. -/
  | spsrc (a : Src) (b : Src)
  /-- SPINS (R286): Inserts a source's answer record into the span list. -/
  | spins (a : Src) (b : Src)
  /-- SPSETTLE (R286): Raises a source's settled-to value. -/
  | spsettle (a : Src) (b : Src)
  /-- SPDONE (R286): Marks a source done. -/
  | spdone (a : Src)
  /-- SPRD (R287): Reads a selected ray-slot field into d. -/
  | sprd (d : XName) (a : Src) (b : Src)
  /-- RAYSTOP (R286): Stops a running ray and sends notices and completion. -/
  | raystop (a : Src)
  /-- RAYFREE (R286): Frees a ray slot and advances its generation. -/
  | rayfree (a : Src)
  /-- RAY_UNIT_REPLY (R286): The traversal unit's handle or SPRD value arrives and fills d. -/
  | rayUnitReply (id : Nat)
  /-- WALKER_STEP (R294): The walker pops its nearest pending entry, settles, and answers or expands it. -/
  | walkerStep (stage : Nat) (slot : Nat)
  /-- WALKER_FETCH (R292): A walker node, leaf or brick fetch returns, or faults. -/
  | walkerFetch (stage : Nat) (slot : Nat)
  /-- TRAV_ABORT (R300): trav.ctl command 01 aborts the context's rays and raster waves. -/
  | travAbort (stage : Nat) (ctx : Nat)
  /-- TRAV_RESET (R300): trav.ctl command 10 aborts and then frees every slot of the context. -/
  | travReset (stage : Nat) (ctx : Nat)
  /-- TRAV_SDF_WRITE (R299): A write to trav.sdf that ignores invalid thresholds. -/
  | travSdfWrite (stage : Nat) (value : Nat)
  /-- VBMIN (R303): Atomically replaces a visibility sample when the candidate wins. -/
  | vbmin (d : XName) (a : Src) (b : Src)
  /-- WGEMIT (R306): Posts a record to a work-graph node. -/
  | wgemit (a : Src) (b : Src)
  /-- WGFIN (R306): Signals one producer's end to a work-graph node. -/
  | wgfin (a : Src)
  /-- RASTER_RECORD (R304): A raster unit takes a batch record and rasterises it. -/
  | rasterRecord (die : Nat) (unit : Nat) (queue : Nat)
  /-- RASTER_QUEUE_COMPLETE (R307): A raster queue with count 0 and all samples performed bumps its counter and goes idle. -/
  | rasterQueueComplete (die : Nat) (unit : Nat) (queue : Nat)
  /-- CSRR (R329): Reads a control register into d. -/
  | csrr (d : XName) (n : BitVec 11)
  /-- CSRW (R329): Writes a control register. -/
  | csrw (a : Src) (n : BitVec 11)
  /-- CSRX (R329): Exchanges a control register with s1 in one step. -/
  | csrx (d : XName) (a : Src) (n : BitVec 11)
  /-- HCALL (R331): Raises supervisor call with code n. -/
  | hcall (n : BitVec 11)
  /-- ERET (R330): Returns from a trap handler. -/
  | eret
  /-- WFI (R331): Holds a thread until an inbox, counter or window event. -/
  | wfi
  /-- TLBW (R332): Writes a TLB entry into a named unit's TLB. -/
  | tlbw (a : Src) (b : Src)
  /-- TLBI (R332): Invalidates a mapping in the stage's and die raster units' TLBs. -/
  | tlbi (a : Src)
  /-- TLBP (R332): Reads the issuing core's TLB entry for an address. -/
  | tlbp (d : XName) (a : Src)
  /-- CTXSV (R333): Holds a slot and saves its image to the wings. -/
  | ctxsv (a : Src)
  /-- CTXLD (R333): Checks a held slot's image and releases it. -/
  | ctxld (a : Src)
  /-- SNAP (R334): Raises the curtain so every block latches a snapshot. -/
  | snap (d : XName)
  /-- CURTAIN_TIMEOUT (R416): A block misses the 64-cycle curtain window and raises curtain. -/
  | curtainTimeout (block : Nat)
  /-- CURTAIN_FALL (R334): Every block has latched and the SNAP issuer receives the timestamp. -/
  | curtainFall
  /-- C_MOV (R136): Compact register move clearing the tag. -/
  | cMov (a : BitVec 3) (b : BitVec 3)
  /-- C_ADD (R136): Compact add a := a + b. -/
  | cAdd (a : BitVec 3) (b : BitVec 3)
  /-- C_SUB (R136): Compact subtract a := a - b. -/
  | cSub (a : BitVec 3) (b : BitVec 3)
  /-- C_ADDI (R136): Compact add of an 8-bit immediate. -/
  | cAddi (a : BitVec 3) (i : BitVec 8)
  /-- C_LDI (R136): Compact load of an 8-bit immediate. -/
  | cLdi (a : BitVec 3) (i : BitVec 8)
  /-- C_LW (R136): Compact word load. -/
  | cLw (a : BitVec 3) (b : BitVec 3) (i : BitVec 5)
  /-- C_SW (R136): Compact word store. -/
  | cSw (a : BitVec 3) (b : BitVec 3) (i : BitVec 5)
  /-- C_BEQZ (R136): Compact branch if zero. -/
  | cBeqz (a : BitVec 3) (i : BitVec 8)
  /-- C_BNEZ (R136): Compact branch if nonzero. -/
  | cBnez (a : BitVec 3) (i : BitVec 8)
  /-- C_J (R136): Compact jump. -/
  | cJ (i : BitVec 11)
  /-- C_CWAIT (R136): Compact counter wait. -/
  | cCwait (c : BitVec 6) (i : BitVec 5)
  /-- C_NOP (R136): Compact no-operation. -/
  | cNop
  /-- C_DONE (R136): Compact done. -/
  | cDone
  /-- C_RET (R136): Compact return through x1. -/
  | cRet
  /-- MESSAGE_ARRIVAL (R36): A message reaches a core's inbox and is accepted or refused. -/
  | messageArrival (id : Nat)
  /-- MESSAGE_RETRY (R36): A refused message's sender retries after its backoff. -/
  | messageRetry (id : Nat)
  /-- UNBOUND_TIMEOUT (R36): After 2^20 cycles of refusal the sender drops the message and posts the cause. -/
  | unboundTimeout (id : Nat)
  /-- MESSAGE_DEQUEUE (R36): The inbox head is dequeued and starts an activation or goes to the unbound queue. -/
  | messageDequeue (core : Nat)
  /-- START_MESSAGE (R35): The class-0 start message starts threads in slots 0 to n-1 of a placed core. -/
  | startMessage (id : Nat)
  /-- SPAWN_REQUEST (R34): A spawn request reaches the target core and takes a free slot or is refused. -/
  | spawnRequest (id : Nat)
  /-- SPAWN_ANSWER (R204): The target's answer reaches the spawning task and fills d. -/
  | spawnAnswer (id : Nat)
  /-- COUNTER_BUMP (R86): A completion bump, local or arriving as a message, adds to a counter. -/
  | counterBump (id : Nat)
  /-- HANDLER_BUDGET (R24): An activation's cycle count exceeds hnd.budget and it traps. -/
  | handlerBudget (core : Nat)
  /-- BLOCK_SWAP (R31): A resident thread blocked for 256 cycles is swapped for a ready slot. -/
  | blockSwap (core : Nat)
  /-- QUANTUM_SWAP (R31): A thread resident for 65,536 cycles is swapped for a ready slot. -/
  | quantumSwap (core : Nat)
  /-- SLOT_SWAP_COMPLETE (R31): An image finishes streaming and the incoming slot becomes resident. -/
  | slotSwapComplete (core : Nat)
  /-- DIVIDE_COMPLETE (R149): A division's result arrives and sets d full. -/
  | divideComplete (id : Nat)
  /-- MAP_ACCESS (R80): A map read or write reaches its target core window. -/
  | mapAccess (id : Nat)
  /-- LOAD_REPLY (R177): A map or mesh load's value returns and sets d full. -/
  | loadReply (id : Nat)
  /-- DQ_ENTRY_START (R86): A DRAM queue entry starts and splits into granule accesses. -/
  | dqEntryStart (core : Nat)
  /-- DQ_ENTRY_COMPLETE (R86): All accesses of an entry are performed and its counter is bumped. -/
  | dqEntryComplete (core : Nat) (entry : Nat)
  /-- DQ_ACCESS_FAULT (R88): A queue entry's access faults and is suspended or abandoned. -/
  | dqAccessFault (core : Nat) (entry : Nat)
  /-- DQ_FAULT_RECORD_WRITE (R88): A waiting fault record is written once dq.fault's valid bit clears. -/
  | dqFaultRecordWrite (core : Nat)
  /-- DQ_FAULT_CLEAR (R88): A W1C write to dq.fault's valid bit clears the record. -/
  | dqFaultClear (core : Nat)
  /-- DEFERRED_TRAP (R324): A deferred cause is taken at the issuing slot's next instruction boundary. -/
  | deferredTrap (core : Nat) (ctx : Nat)
  /-- WATCHDOG (R350): A core holding a ready task issues nothing for 2^28 cycles. -/
  | watchdog (core : Nat)
  /-- SCOPE_MISS (R112): The core's system handler fences and re-publishes a store delivered outside its scope. -/
  | scopeMiss (id : Nat)
  /-- TRANSLATION_TIMEOUT (R356): A miss unanswered for 2^26 cycles fails its waiting accesses. -/
  | translationTimeout (id : Nat)
  /-- FAULT_CLIMB (R359): A page fault arrives at a router and joins or makes a fault-table entry. -/
  | faultClimb (id : Nat)
  /-- PAGER_WAKE (R360): The pager's 16-byte wake write reaches the root. -/
  | pagerWake (part : Nat) (ctx : Nat) (page : Nat) (deny : Nat)
  /-- ROUTER_WAKE (R362): A router forwards a wake on its entry's ports and frees the entry. -/
  | routerWake (id : Nat)
  /-- AGENT_WAKE (R363): A wake reaches an agent, removes fault entries and restarts waiting accesses. -/
  | agentWake (id : Nat)
  /-- QUEUE_RECORD_WRITE (R396): The device writes an error or pager queue record and advances the producer. -/
  | queueRecordWrite (id : Nat)
  /-- PGQ_WRITE (R396): A write to pgq.base or pgq.ptr retries a pending pager record. -/
  | pgqWrite (id : Nat)
  /-- HOST_LAUNCH_RECORD (R368): A host launch record takes a pending-launch entry. -/
  | hostLaunchRecord (id : Nat)
  /-- HEADER_READ (R369): The DFE reads and checks a kernel header, refusing a bad one. -/
  | headerRead (id : Nat)
  /-- KERNEL_PLACEMENT (R371): The DFE places the first-ranked entry on free cores and broadcasts its start. -/
  | kernelPlacement (id : Nat)
  /-- KERNEL_RETIRE (R372): A finished kernel retires, unbinds its classes and frees its cores. -/
  | kernelRetire (id : Nat)
  /-- GATE_ADMIT (R374): The die gate admits a level change when the slope sum allows. -/
  | gateAdmit (die : Nat)
  /-- RAMP_END (R373): A ramp's L cycles elapse and its slope leaves the sum. -/
  | rampEnd (die : Nat)
  /-- DIDT_LIMIT_WRITE (R376): A write to didt.limit, ignored when 0. -/
  | didtLimitWrite (die : Nat) (value : Nat)
  /-- ENG_RAMP_WRITE (R376): A write to eng.ramp, ignored below 16. -/
  | engRampWrite (die : Nat) (value : Nat)
  /-- QUIESCENCE_DETECTED (R378): Quiescence is detected and releases QUIESCE, retirement and pre-emption. -/
  | quiescenceDetected (part : Nat)
  /-- QUIESCE_PROBE (R378): The mode-1 probe passes an idle interface and adds its count. -/
  | quiesceProbe (part : Nat)
  /-- PREEMPT_COMMAND (R335): disp.ctl command 01 begins draining the partition. -/
  | preemptCommand (part : Nat)
  /-- PREEMPT_SAVE (R335): After quiescence the partition's state is written to the save area. -/
  | preemptSave (part : Nat)
  /-- RESTORE_COMMAND (R335): disp.ctl command 10 restores a saved partition. -/
  | restoreCommand (part : Nat)
  /-- LOOP_DEPTH_WRITE (R58): A supervisor write to loop.depth, ignored when 3. -/
  | loopDepthWrite (core : Nat) (ctx : Nat) (value : Nat)
  /-- BANK_FMT_WRITE (R93): A write to bank.fmt that traps while a tile in the bank is not empty. -/
  | bankFmtWrite (core : Nat) (bank : Nat) (value : Nat)
  /-- REGISTER_WRITE (R5): A write to a register with no row of its own, under its Access column. -/
  | registerWrite (addr : Nat) (value : Nat)
  /-- DRAM_READ (R389): A controller read decodes its granule's codewords. -/
  | dramRead (addr : Nat) (gran : Nat) (tol : Nat)
  /-- DRAM_WRITE (R390): A controller write, partial writes done as read-modify-write. -/
  | dramWrite (addr : Nat) (gran : Nat) (tol : Nat) (n : Nat) (value : Nat)
  /-- PERIODIC_REFRESH (R391): A periodic refresh subtracts rfm.credit from the bank count. -/
  | periodicRefresh (stack : Nat) (bank : Nat)
  /-- RFM_LEVEL_WRITE (R391): A write to rfm.level, ignored outside 16 to 2,047. -/
  | rfmLevelWrite (stack : Nat) (value : Nat)
  /-- RFM_CREDIT_WRITE (R391): A write to rfm.credit, ignored outside 1 to rfm.level. -/
  | rfmCreditWrite (stack : Nat) (value : Nat)
  /-- COMPRESSION_RESET_NOTICE (R393): A receiver's reset notice drops the sender's dictionary for it. -/
  | compressionResetNotice (core : Nat)
  /-- FLIT_REPLAY (R397): A failed flit is resent from the replay buffer. -/
  | flitReplay (port : Nat)
  /-- LINK_RETRAIN (R400): Eight consecutive flit failures start link retraining. -/
  | linkRetrain (port : Nat)
  /-- LINK_RETRAIN_END (R400): Retraining ends at a width, or the link goes down. -/
  | linkRetrainEnd (port : Nat)
  /-- PEER_REQUEST (R398): A tier-2 access or atomic from a peer arrives and is performed within granted frames. -/
  | peerRequest (port : Nat)
  /-- COLD_START (R411): Runs every start step from reset to partition creation. -/
  | coldStart
  /-- WARM_START (R411): Runs the start with stored calibration, falling back to cold on failure. -/
  | warmStart
  /-- LIVE_UPDATE (R415): A unit's firmware or calibration is drained, swapped and resumed. -/
  | liveUpdate
  /-- TELEMETRY_RECORD (R417): Every 250 microseconds each die's DFE writes a telemetry record. -/
  | telemetryRecord (die : Nat)
  /-- ILLEGAL_INSTRUCTION (R134): Executing an encoding that is not an instruction (reserved major, function, field, pair or continuation word) takes its precise class-0 trap. -/
  | illegalInstruction
  /-- WFI_END_WITHOUT_EVENT (R331): A thread held by WFI is released at a moment the device chooses, with no message, counter change or window write. -/
  | wfiEndWithoutEvent (core : Nat) (ctx : Nat)
  /-- ATTESTATION_QUOTE (R412): A requester's nonce produces a quote over the image measurements, dec.gen, grade and timestamp, signed with SLH-DSA-SHA2-128f. -/
  | attestationQuote (nonce : Nat)
  /-- ORDERLY_SHUTDOWN (R411): An orderly shutdown places the stacks in self-refresh and keeps the stored calibration that a later warm start requires. -/
  | orderlyShutdown
  /-- PARTITION_RESET (R361): Firmware resets a partition, discarding the agents that wait on unanswered pager records. -/
  | partitionReset (part : Nat)
deriving DecidableEq, Repr

end Sys2Proof
end

