-- ==== Sys2Proof/Decode.lean ====
section
/-!
DEFINITION. Decode.lean: from bytes to instructions (08 R126 to R136), then the encoder, written from the same tables.
A word decodes to the row of the opcode table whose fixed bits it has, and to nothing where an unused or reserved field
is not zero (R129). Operand values that a row itself refuses (a reserved rounding mode, an empty fence set) decode, and the
meaning of the row traps "illegal instruction" on them, with the same state as R134 asks for.
-/

namespace Sys2Proof

/-- Bits [lo + n - 1 : lo] of a word. -/
def ext (lo n : Nat) {m : Nat} (w : BitVec m) : BitVec n := BitVec.ofNat n (w.toNat >>> lo)

/-- A one-bit field read as a Boolean. -/
def bit (b : BitVec 1) : Bool := b == 1#1

/-- A five-bit register field with the wait bit that governs it (08 R128, R129). -/
def src (lo markLo : Nat) {m : Nat} (w : BitVec m) : Src := ⟨ext lo 5 w, bit (ext markLo 1 w)⟩

/-- Why bytes are no instruction (08 R127, R134). -/
inductive Reject where
  | illegal        -- "illegal instruction"
  | branchInto     -- "branch into instruction"
deriving DecidableEq, Repr

/-- Major 0 (AluR, 08 R133). -/
noncomputable def decodeAluR (w : BitVec 32) : Option Instr :=
  match (ext 24 5 w).toNat with
  | 0 => if ext 29 3 w = 0#3 then some (.add (ext 7 5 w) (src 12 17 w) (src 18 23 w)) else none
  | 1 => if ext 29 3 w = 0#3 then some (.sub (ext 7 5 w) (src 12 17 w) (src 18 23 w)) else none
  | 2 => if ext 29 3 w = 0#3 then some (.and (ext 7 5 w) (src 12 17 w) (src 18 23 w)) else none
  | 3 => if ext 29 3 w = 0#3 then some (.or (ext 7 5 w) (src 12 17 w) (src 18 23 w)) else none
  | 4 => if ext 29 3 w = 0#3 then some (.xor (ext 7 5 w) (src 12 17 w) (src 18 23 w)) else none
  | 5 => if ext 29 3 w = 0#3 then some (.andn (ext 7 5 w) (src 12 17 w) (src 18 23 w)) else none
  | 6 => if ext 29 3 w = 0#3 then some (.orn (ext 7 5 w) (src 12 17 w) (src 18 23 w)) else none
  | 8 => if ext 29 3 w = 0#3 then some (.min (ext 7 5 w) (src 12 17 w) (src 18 23 w)) else none
  | 9 => if ext 29 3 w = 0#3 then some (.max (ext 7 5 w) (src 12 17 w) (src 18 23 w)) else none
  | 10 => if ext 29 3 w = 0#3 then some (.minu (ext 7 5 w) (src 12 17 w) (src 18 23 w)) else none
  | 11 => if ext 29 3 w = 0#3 then some (.maxu (ext 7 5 w) (src 12 17 w) (src 18 23 w)) else none
  | 12 => if ext 29 3 w = 0#3 then some (.slt (ext 7 5 w) (src 12 17 w) (src 18 23 w)) else none
  | 13 => if ext 29 3 w = 0#3 then some (.sltu (ext 7 5 w) (src 12 17 w) (src 18 23 w)) else none
  | 14 => if ext 29 3 w = 0#3 then some (.seq (ext 7 5 w) (src 12 17 w) (src 18 23 w)) else none
  | 16 => if ext 29 3 w = 0#3 then some (.sel (ext 7 5 w) (src 12 17 w) (src 18 23 w)) else none
  | 17 => if ext 29 3 w = 0#3 ∧ ext 18 6 w = 0#6 then some (.abs (ext 7 5 w) (src 12 17 w)) else none
  | _ => none

/-- Major 1 (AluI, 08 R133). -/
noncomputable def decodeAluI (w : BitVec 32) : Option Instr :=
  match (ext 29 3 w).toNat with
  | 0 => some (.addi (ext 7 5 w) (src 12 17 w) (ext 18 11 w))
  | 1 => some (.andi (ext 7 5 w) (src 12 17 w) (ext 18 11 w))
  | 2 => some (.ori (ext 7 5 w) (src 12 17 w) (ext 18 11 w))
  | 3 => some (.xori (ext 7 5 w) (src 12 17 w) (ext 18 11 w))
  | 4 => some (.slti (ext 7 5 w) (src 12 17 w) (ext 18 11 w))
  | 5 => some (.sltiu (ext 7 5 w) (src 12 17 w) (ext 18 11 w))
  | 6 => if ext 12 6 w = 0#6 then some (.ldi (ext 7 5 w) (ext 18 11 w)) else none
  | _ => none

/-- Major 2 (Shift, 08 R133). -/
noncomputable def decodeShift (w : BitVec 32) : Option Instr :=
  match (ext 24 5 w).toNat with
  | 0 => if ext 29 3 w = 0#3 then some (.shl (ext 7 5 w) (src 12 17 w) (src 18 23 w)) else none
  | 1 => if ext 29 3 w = 0#3 then some (.shr (ext 7 5 w) (src 12 17 w) (src 18 23 w)) else none
  | 2 => if ext 29 3 w = 0#3 then some (.sra (ext 7 5 w) (src 12 17 w) (src 18 23 w)) else none
  | 3 => if ext 29 3 w = 0#3 then some (.rot (ext 7 5 w) (src 12 17 w) (src 18 23 w)) else none
  | 4 => if ext 29 3 w = 0#3 then some (.fshl (ext 7 5 w) (src 12 17 w) (src 18 23 w)) else none
  | 5 => if ext 29 3 w = 0#3 then some (.fshr (ext 7 5 w) (src 12 17 w) (src 18 23 w)) else none
  | 8 => if ext 29 3 w = 0#3 then some (.shli (ext 7 5 w) (src 12 17 w) (ext 18 6 w)) else none
  | 9 => if ext 29 3 w = 0#3 then some (.shri (ext 7 5 w) (src 12 17 w) (ext 18 6 w)) else none
  | 10 => if ext 29 3 w = 0#3 then some (.srai (ext 7 5 w) (src 12 17 w) (ext 18 6 w)) else none
  | 11 => if ext 29 3 w = 0#3 then some (.roti (ext 7 5 w) (src 12 17 w) (ext 18 6 w)) else none
  | 16 => if ext 29 3 w = 0#3 ∧ ext 18 6 w = 0#6 then some (.clz (ext 7 5 w) (src 12 17 w)) else none
  | 17 => if ext 29 3 w = 0#3 ∧ ext 18 6 w = 0#6 then some (.ctz (ext 7 5 w) (src 12 17 w)) else none
  | 18 => if ext 29 3 w = 0#3 ∧ ext 18 6 w = 0#6 then some (.popc (ext 7 5 w) (src 12 17 w)) else none
  | 19 => if ext 29 3 w = 0#3 ∧ ext 18 6 w = 0#6 then some (.brev (ext 7 5 w) (src 12 17 w)) else none
  | 20 => if ext 29 3 w = 0#3 then some (.sext (ext 7 5 w) (src 12 17 w) (ext 18 6 w)) else none
  | 21 => if ext 29 3 w = 0#3 then some (.zext (ext 7 5 w) (src 12 17 w) (ext 18 6 w)) else none
  | 24 => if ext 29 3 w = 0#3 then some (.bext (ext 7 5 w) (src 12 17 w) (src 18 23 w)) else none
  | 25 => if ext 29 3 w = 0#3 then some (.bins (ext 7 5 w) (src 12 17 w) (src 18 23 w)) else none
  | _ => none

/-- Major 3 (MulDiv, 08 R133). -/
noncomputable def decodeMulDiv (w : BitVec 32) : Option Instr :=
  match (ext 24 3 w).toNat with
  | 0 => if ext 27 5 w = 0#5 then some (.mul (ext 7 5 w) (src 12 17 w) (src 18 23 w)) else none
  | 1 => if ext 27 5 w = 0#5 then some (.mulh (ext 7 5 w) (src 12 17 w) (src 18 23 w)) else none
  | 2 => if ext 27 5 w = 0#5 then some (.mulhu (ext 7 5 w) (src 12 17 w) (src 18 23 w)) else none
  | 3 => if ext 27 5 w = 0#5 then some (.mulhm (ext 7 5 w) (src 12 17 w) (src 18 23 w)) else none
  | 4 => if ext 27 5 w = 0#5 then some (.div (ext 7 5 w) (src 12 17 w) (src 18 23 w)) else none
  | 5 => if ext 27 5 w = 0#5 then some (.divu (ext 7 5 w) (src 12 17 w) (src 18 23 w)) else none
  | 6 => if ext 27 5 w = 0#5 then some (.rem (ext 7 5 w) (src 12 17 w) (src 18 23 w)) else none
  | 7 => if ext 27 5 w = 0#5 then some (.remu (ext 7 5 w) (src 12 17 w) (src 18 23 w)) else none
  | _ => none

/-- Major 4 (Cap, 08 R133). -/
noncomputable def decodeCap (w : BitVec 32) : Option Instr :=
  match (ext 29 2 w).toNat with
  | 0 =>
    match (ext 24 3 w).toNat with
    | 0 => if ext 31 1 w = 0#1 ∧ ext 27 2 w = 0#2 then some (.csetb (ext 7 5 w) (src 12 17 w) (src 18 23 w)) else none
    | 1 => if ext 31 1 w = 0#1 ∧ ext 27 2 w = 0#2 then some (.cperm (ext 7 5 w) (src 12 17 w) (src 18 23 w)) else none
    | 2 => if ext 31 1 w = 0#1 ∧ ext 27 2 w = 0#2 then some (.cinc (ext 7 5 w) (src 12 17 w) (src 18 23 w)) else none
    | 3 => if ext 31 1 w = 0#1 ∧ ext 27 2 w = 0#2 then some (.cmesh (ext 7 5 w) (src 12 17 w) (src 18 23 w)) else none
    | 4 => if ext 31 1 w = 0#1 ∧ ext 27 2 w = 0#2 then some (.ctest (ext 7 5 w) (src 12 17 w) (src 18 23 w)) else none
    | 5 => if ext 31 1 w = 0#1 ∧ ext 27 2 w = 0#2 ∧ ext 18 6 w = 0#6 then some (.cclr (ext 7 5 w) (src 12 17 w)) else none
    | _ => none
  | 1 => if ext 31 1 w = 0#1 then some (.cinci (ext 7 5 w) (src 12 17 w) (ext 18 11 w)) else none
  | 2 => if ext 31 1 w = 0#1 then some (.cget (ext 7 5 w) (ext 18 11 w) (src 12 17 w)) else none
  | _ => none

/-- Major 5 (Branch, 08 R133). -/
noncomputable def decodeBranch (w : BitVec 32) : Option Instr :=
  match (ext 24 3 w).toNat with
  | 0 => some (.beq (src 12 17 w) (src 18 23 w) (ext 27 5 w ++ ext 7 5 w))
  | 1 => some (.bne (src 12 17 w) (src 18 23 w) (ext 27 5 w ++ ext 7 5 w))
  | 4 => some (.blt (src 12 17 w) (src 18 23 w) (ext 27 5 w ++ ext 7 5 w))
  | 5 => some (.bge (src 12 17 w) (src 18 23 w) (ext 27 5 w ++ ext 7 5 w))
  | 6 => some (.bltu (src 12 17 w) (src 18 23 w) (ext 27 5 w ++ ext 7 5 w))
  | 7 => some (.bgeu (src 12 17 w) (src 18 23 w) (ext 27 5 w ++ ext 7 5 w))
  | _ => none

/-- Major 6 (Jump, 08 R133). -/
noncomputable def decodeJump (w : BitVec 32) : Option Instr :=
  some (.jal (ext 7 5 w) (ext 12 20 w))

/-- Major 7 (Jreg, 08 R133). -/
noncomputable def decodeJreg (w : BitVec 32) : Option Instr :=
  match (ext 31 1 w).toNat with
  | 0 =>
    match (ext 29 2 w).toNat with
    | 0 =>
      match (ext 24 3 w).toNat with
      | 0 => if ext 27 2 w = 0#2 ∧ ext 18 6 w = 0#6 ∧ ext 7 5 w = 0#5 then some (.jr (src 12 17 w)) else none
      | 1 => if ext 27 2 w = 0#2 ∧ ext 18 6 w = 0#6 then some (.jalr (ext 7 5 w) (src 12 17 w)) else none
      | 2 => if ext 27 2 w = 0#2 ∧ ext 7 17 w = 0#17 then some (.done) else none
      | 3 => if ext 27 2 w = 0#2 ∧ ext 7 17 w = 0#17 then some (.yield) else none
      | 5 => if ext 27 2 w = 0#2 ∧ ext 7 17 w = 0#17 then some (.nop) else none
      | 6 => if ext 27 2 w = 0#2 ∧ ext 12 12 w = 0#12 then some (.waitf (ext 7 5 w)) else none
      | _ => none
    | 1 => if ext 7 5 w = 0#5 then some (.loop (src 12 17 w) (ext 18 11 w)) else none
    | 2 => if ext 7 11 w = 0#11 then some (.trap (ext 18 11 w)) else none
    | _ => none
  | 1 => some (.loopi (ext 18 13 w) (ext 7 11 w))
  | _ => none

/-- Major 8 (Load, 08 R133). -/
noncomputable def decodeLoad (w : BitVec 32) : Option Instr :=
  match (ext 18 3 w).toNat with
  | 0 => some (.lb (ext 7 5 w) (src 12 17 w) (ext 21 11 w))
  | 1 => some (.lh (ext 7 5 w) (src 12 17 w) (ext 21 11 w))
  | 2 => some (.lw (ext 7 5 w) (src 12 17 w) (ext 21 11 w))
  | 3 => some (.ld (ext 7 5 w) (src 12 17 w) (ext 21 11 w))
  | 4 => some (.lbu (ext 7 5 w) (src 12 17 w) (ext 21 11 w))
  | 5 => some (.lhu (ext 7 5 w) (src 12 17 w) (ext 21 11 w))
  | 6 => some (.lwu (ext 7 5 w) (src 12 17 w) (ext 21 11 w))
  | 7 => some (.lq (ext 7 5 w) (src 12 17 w) (ext 21 11 w))
  | _ => none

/-- Major 9 (Store, 08 R133). -/
noncomputable def decodeStore (w : BitVec 32) : Option Instr :=
  match (ext 7 5 w).toNat with
  | 0 => some (.sb (src 12 17 w) (src 18 23 w) (ext 24 8 w))
  | 1 => some (.sh (src 12 17 w) (src 18 23 w) (ext 24 8 w))
  | 2 => some (.sw (src 12 17 w) (src 18 23 w) (ext 24 8 w))
  | 3 => some (.sd (src 12 17 w) (src 18 23 w) (ext 24 8 w))
  | 4 => some (.sq (src 12 17 w) (src 18 23 w) (ext 24 8 w))
  | 8 => some (.sbPostinc (src 12 17 w) (src 18 23 w) (ext 24 8 w))
  | 9 => some (.shPostinc (src 12 17 w) (src 18 23 w) (ext 24 8 w))
  | 10 => some (.swPostinc (src 12 17 w) (src 18 23 w) (ext 24 8 w))
  | 11 => some (.sdPostinc (src 12 17 w) (src 18 23 w) (ext 24 8 w))
  | 12 => some (.sqPostinc (src 12 17 w) (src 18 23 w) (ext 24 8 w))
  | 16 => if ext 23 1 w = 0#1 then some (.lbPostinc (ext 18 5 w) (src 12 17 w) (ext 24 8 w)) else none
  | 17 => if ext 23 1 w = 0#1 then some (.lhPostinc (ext 18 5 w) (src 12 17 w) (ext 24 8 w)) else none
  | 18 => if ext 23 1 w = 0#1 then some (.lwPostinc (ext 18 5 w) (src 12 17 w) (ext 24 8 w)) else none
  | 19 => if ext 23 1 w = 0#1 then some (.ldPostinc (ext 18 5 w) (src 12 17 w) (ext 24 8 w)) else none
  | 20 => if ext 23 1 w = 0#1 then some (.lbuPostinc (ext 18 5 w) (src 12 17 w) (ext 24 8 w)) else none
  | 21 => if ext 23 1 w = 0#1 then some (.lhuPostinc (ext 18 5 w) (src 12 17 w) (ext 24 8 w)) else none
  | 22 => if ext 23 1 w = 0#1 then some (.lwuPostinc (ext 18 5 w) (src 12 17 w) (ext 24 8 w)) else none
  | 23 => if ext 23 1 w = 0#1 then some (.lqPostinc (ext 18 5 w) (src 12 17 w) (ext 24 8 w)) else none
  | _ => none

/-- Major 10 (Stream, 08 R133). -/
noncomputable def decodeStream (w : BitVec 32) : Option Instr :=
  match (ext 30 1 w).toNat with
  | 0 =>
    match (ext 24 3 w).toNat with
    | 1 => if ext 31 1 w = 0#1 ∧ ext 27 3 w = 0#3 ∧ ext 22 2 w = 0#2 then some (.sbind (ext 7 5 w) (ext 20 2 w) (src 12 17 w) (ext 18 2 w)) else none
    | 2 => if ext 31 1 w = 0#1 ∧ ext 27 3 w = 0#3 ∧ ext 22 2 w = 0#2 then some (.sbindA (ext 7 5 w) (ext 20 2 w) (src 12 17 w) (ext 18 2 w)) else none
    | 3 => if ext 31 1 w = 0#1 ∧ ext 27 3 w = 0#3 ∧ ext 12 12 w = 0#12 then some (.sunbind (ext 7 5 w)) else none
    | 4 => if ext 31 1 w = 0#1 ∧ ext 27 3 w = 0#3 ∧ ext 22 2 w = 0#2 ∧ ext 12 8 w = 0#8 then some (.sstat (ext 7 5 w) (ext 20 2 w)) else none
    | _ => none
  | 1 => if ext 31 1 w = 0#1 then some (.lea (ext 7 5 w) (src 12 17 w) (ext 28 2 w) (ext 18 10 w)) else none
  | _ => none

/-- Major 11 (Dq, 08 R133). -/
noncomputable def decodeDq (w : BitVec 32) : Option Instr :=
  match (ext 30 2 w).toNat with
  | 0 => some (.dpull (ext 7 5 w) (ext 24 6 w) (src 12 17 w) (src 18 23 w))
  | 1 => some (.dpush (ext 7 5 w) (ext 24 6 w) (src 12 17 w) (src 18 23 w))
  | 2 => some (.dgath (ext 7 5 w) (ext 24 6 w) (src 12 17 w) (src 18 23 w))
  | 3 =>
    match (ext 26 3 w).toNat with
    | 0 => if ext 29 1 w = 0#1 ∧ ext 25 1 w = 0#1 ∧ ext 18 1 w = 0#1 then some (.cwait (ext 19 6 w) (ext 7 11 w)) else none
    | 1 => if ext 29 1 w = 0#1 ∧ ext 25 1 w = 0#1 ∧ ext 18 1 w = 0#1 ∧ ext 7 5 w = 0#5 then some (.cwaitReg (ext 19 6 w) (src 12 17 w)) else none
    | 2 => if ext 29 1 w = 0#1 ∧ ext 25 1 w = 0#1 ∧ ext 18 1 w = 0#1 then some (.cadd (ext 19 6 w) (ext 7 11 w)) else none
    | 3 => if ext 29 1 w = 0#1 ∧ ext 25 1 w = 0#1 ∧ ext 18 1 w = 0#1 ∧ ext 7 5 w = 0#5 then some (.caddReg (ext 19 6 w) (src 12 17 w)) else none
    | 4 => if ext 29 1 w = 0#1 ∧ ext 25 1 w = 0#1 ∧ ext 18 1 w = 0#1 then some (.cset (ext 19 6 w) (ext 7 11 w)) else none
    | 5 => if ext 29 1 w = 0#1 ∧ ext 25 1 w = 0#1 ∧ ext 18 1 w = 0#1 ∧ ext 7 5 w = 0#5 then some (.csetReg (ext 19 6 w) (src 12 17 w)) else none
    | 6 => if ext 29 1 w = 0#1 ∧ ext 25 1 w = 0#1 ∧ ext 12 7 w = 0#7 then some (.crd (ext 7 5 w) (ext 19 6 w)) else none
    | _ => none
  | _ => none

/-- Major 12 (Fence, 08 R133). -/
noncomputable def decodeFence (w : BitVec 32) : Option Instr :=
  match (ext 24 4 w).toNat with
  | 0 => if ext 28 4 w = 0#4 ∧ ext 23 1 w = 0#1 ∧ ext 17 1 w = 0#1 ∧ ext 7 5 w = 0#5 then some (.fenceC (ext 18 5 w) (ext 12 5 w)) else none
  | 1 => if ext 28 4 w = 0#4 ∧ ext 23 1 w = 0#1 ∧ ext 17 1 w = 0#1 ∧ ext 7 5 w = 0#5 then some (.fenceS (ext 18 5 w) (ext 12 5 w)) else none
  | 2 => if ext 28 4 w = 0#4 ∧ ext 23 1 w = 0#1 ∧ ext 17 1 w = 0#1 ∧ ext 7 5 w = 0#5 then some (.fenceD (ext 18 5 w) (ext 12 5 w)) else none
  | 3 => if ext 28 4 w = 0#4 ∧ ext 23 1 w = 0#1 ∧ ext 17 1 w = 0#1 ∧ ext 7 5 w = 0#5 then some (.fenceP (ext 18 5 w) (ext 12 5 w)) else none
  | 4 => if ext 28 4 w = 0#4 ∧ ext 23 1 w = 0#1 ∧ ext 17 1 w = 0#1 ∧ ext 7 5 w = 0#5 then some (.fenceY (ext 18 5 w) (ext 12 5 w)) else none
  | 8 => if ext 28 4 w = 0#4 ∧ ext 7 17 w = 0#17 then some (.afence) else none
  | 9 => if ext 28 4 w = 0#4 ∧ ext 7 17 w = 0#17 then some (.ifence) else none
  | _ => none

/-- Major 13 (Atomic, 08 R133). -/
noncomputable def decodeAtomic (w : BitVec 32) : Option Instr :=
  match (ext 30 2 w).toNat with
  | 0 =>
    match (ext 27 3 w).toNat with
    | 0 => if ext 24 2 w = 0#2 then some (.aadd (ext 7 5 w) (src 12 17 w) (src 18 23 w) (bit (ext 26 1 w))) else none
    | 1 => if ext 24 2 w = 0#2 then some (.aand (ext 7 5 w) (src 12 17 w) (src 18 23 w) (bit (ext 26 1 w))) else none
    | 2 => if ext 24 2 w = 0#2 then some (.aor (ext 7 5 w) (src 12 17 w) (src 18 23 w) (bit (ext 26 1 w))) else none
    | 3 => if ext 24 2 w = 0#2 then some (.axor (ext 7 5 w) (src 12 17 w) (src 18 23 w) (bit (ext 26 1 w))) else none
    | 4 => if ext 24 2 w = 0#2 then some (.amin (ext 7 5 w) (src 12 17 w) (src 18 23 w) (bit (ext 26 1 w))) else none
    | 5 => if ext 24 2 w = 0#2 then some (.amax (ext 7 5 w) (src 12 17 w) (src 18 23 w) (bit (ext 26 1 w))) else none
    | 6 => if ext 24 2 w = 0#2 then some (.aminu (ext 7 5 w) (src 12 17 w) (src 18 23 w) (bit (ext 26 1 w))) else none
    | 7 => if ext 24 2 w = 0#2 then some (.amaxu (ext 7 5 w) (src 12 17 w) (src 18 23 w) (bit (ext 26 1 w))) else none
    | _ => none
  | 1 =>
    match (ext 27 3 w).toNat with
    | 0 => if ext 24 2 w = 0#2 then some (.aswp (ext 7 5 w) (src 12 17 w) (src 18 23 w) (bit (ext 26 1 w))) else none
    | 1 => if ext 24 2 w = 0#2 then some (.acas (ext 7 5 w) (src 12 17 w) (src 18 23 w) (bit (ext 26 1 w))) else none
    | 2 => if ext 24 2 w = 0#2 then some (.afadd (ext 7 5 w) (src 12 17 w) (src 18 23 w) (bit (ext 26 1 w))) else none
    | 3 => if ext 24 2 w = 0#2 then some (.afmin (ext 7 5 w) (src 12 17 w) (src 18 23 w) (bit (ext 26 1 w))) else none
    | 4 => if ext 24 2 w = 0#2 then some (.afmax (ext 7 5 w) (src 12 17 w) (src 18 23 w) (bit (ext 26 1 w))) else none
    | 5 => if ext 24 2 w = 0#2 ∧ ext 7 5 w = 0#5 then some (.radd (src 12 17 w) (src 18 23 w) (bit (ext 26 1 w))) else none
    | _ => none
  | 2 => some (.aaddTz (ext 7 5 w) (src 12 17 w) (src 18 23 w) (ext 24 6 w))
  | 3 => if ext 7 5 w = 0#5 then some (.raddTz (src 12 17 w) (src 18 23 w) (ext 24 6 w)) else none
  | _ => none

/-- Major 14 (Msg, 08 R133). -/
noncomputable def decodeMsg (w : BitVec 32) : Option Instr :=
  match (ext 29 3 w).toNat with
  | 0 => if ext 26 3 w = 0#3 then some (.send (ext 7 5 w) (src 12 17 w) (ext 18 8 w)) else none
  | 1 => some (.bind (ext 7 5 w) (src 12 17 w) (ext 18 11 w))
  | 2 => some (.rebind (ext 7 5 w) (src 12 17 w) (ext 18 11 w))
  | 3 => if ext 18 11 w = 0#11 ∧ ext 7 5 w = 0#5 then some (.unbind (src 12 17 w)) else none
  | 4 =>
    match (ext 24 1 w).toNat with
    | 0 => if ext 25 4 w = 0#4 then some (.spawn (ext 7 5 w) (src 12 17 w) (src 18 23 w)) else none
    | 1 => if ext 25 4 w = 0#4 then some (.launch (ext 7 5 w) (src 12 17 w) (src 18 23 w)) else none
    | _ => none
  | _ => none

/-- Major 15 (Group, 08 R133). -/
noncomputable def decodeGroup (w : BitVec 32) : Option Instr :=
  match (ext 24 3 w).toNat with
  | 0 => if ext 27 5 w = 0#5 ∧ ext 18 6 w = 0#6 ∧ ext 7 5 w = 0#5 then some (.join (src 12 17 w)) else none
  | 1 => if ext 27 5 w = 0#5 ∧ ext 18 6 w = 0#6 ∧ ext 7 5 w = 0#5 then some (.leave (src 12 17 w)) else none
  | 2 => if ext 27 5 w = 0#5 ∧ ext 18 6 w = 0#6 ∧ ext 7 5 w = 0#5 then some (.barw (src 12 17 w)) else none
  | 3 => if ext 27 5 w = 0#5 ∧ ext 18 6 w = 0#6 ∧ ext 7 5 w = 0#5 then some (.bara (src 12 17 w)) else none
  | 4 => if ext 27 5 w = 0#5 ∧ ext 18 6 w = 0#6 ∧ ext 7 5 w = 0#5 then some (.bard (src 12 17 w)) else none
  | 5 => if ext 27 5 w = 0#5 ∧ ext 18 6 w = 0#6 then some (.barq (ext 7 5 w) (src 12 17 w)) else none
  | 6 => if ext 27 5 w = 0#5 ∧ ext 7 17 w = 0#17 then some (.quiesce) else none
  | _ => none

/-- Major 16 (FpS, 08 R133). -/
noncomputable def decodeFpS (w : BitVec 32) : Option Instr :=
  match (ext 29 3 w).toNat with
  | 0 => some (.fadd (ext 7 5 w) (src 12 17 w) (src 18 23 w) (ext 27 2 w) (ext 24 3 w))
  | 1 => some (.fsub (ext 7 5 w) (src 12 17 w) (src 18 23 w) (ext 27 2 w) (ext 24 3 w))
  | 2 => some (.fmul (ext 7 5 w) (src 12 17 w) (src 18 23 w) (ext 27 2 w) (ext 24 3 w))
  | 3 => some (.fdiv (ext 7 5 w) (src 12 17 w) (src 18 23 w) (ext 27 2 w) (ext 24 3 w))
  | 4 => if ext 18 6 w = 0#6 then some (.fsqrt (ext 7 5 w) (src 12 17 w) (ext 27 2 w) (ext 24 3 w)) else none
  | 5 => some (.fma (ext 7 5 w) (src 12 17 w) (src 18 23 w) (ext 27 2 w) (ext 24 3 w))
  | 6 => some (.fnma (ext 7 5 w) (src 12 17 w) (src 18 23 w) (ext 27 2 w) (ext 24 3 w))
  | 7 =>
    match (ext 24 3 w).toNat with
    | 0 => some (.fmin (ext 7 5 w) (src 12 17 w) (src 18 23 w) (ext 27 2 w))
    | 1 => some (.fmax (ext 7 5 w) (src 12 17 w) (src 18 23 w) (ext 27 2 w))
    | 2 => some (.fcmp (ext 7 5 w) (src 12 17 w) (src 18 23 w) (ext 27 2 w))
    | 3 => if ext 18 6 w = 0#6 then some (.fclass (ext 7 5 w) (src 12 17 w) (ext 27 2 w)) else none
    | 4 => some (.fmvxJ (ext 7 5 w) (src 12 17 w) (src 18 23 w) (ext 27 2 w))
    | 5 => some (.fmvxN (ext 7 5 w) (src 12 17 w) (src 18 23 w) (ext 27 2 w))
    | 6 => some (.fmvxX (ext 7 5 w) (src 12 17 w) (src 18 23 w) (ext 27 2 w))
    | _ => none
  | _ => none

/-- Major 17 (FpCvt, 08 R133). -/
noncomputable def decodeFpCvt (w : BitVec 32) : Option Instr :=
  match (ext 30 2 w).toNat with
  | 0 => if ext 21 3 w = 0#3 then some (.fcvt (ext 7 5 w) (src 12 17 w) (ext 27 3 w) (ext 24 3 w) (ext 18 3 w)) else none
  | 1 => if ext 21 3 w = 0#3 then some (.fcvtInt (ext 7 5 w) (src 12 17 w) (ext 27 3 w) (ext 24 3 w) (ext 18 3 w)) else none
  | 2 => if ext 21 3 w = 0#3 then some (.fcvtf (ext 7 5 w) (src 12 17 w) (ext 27 3 w) (ext 24 3 w) (ext 18 3 w)) else none
  | _ => none

/-- Major 18 (VecI, 08 R133). -/
noncomputable def decodeVecI (w : BitVec 32) : Option Instr :=
  match (ext 24 5 w).toNat with
  | 0 => if ext 29 2 w = 0#2 then some (.vadd (ext 9 4 w) (ext 13 4 w) (ext 17 4 w) (bit (ext 31 1 w)) (ext 21 3 w) (ext 7 2 w)) else none
  | 1 => if ext 29 2 w = 0#2 then some (.vsub (ext 9 4 w) (ext 13 4 w) (ext 17 4 w) (bit (ext 31 1 w)) (ext 21 3 w) (ext 7 2 w)) else none
  | 2 => if ext 29 2 w = 0#2 then some (.vmul (ext 9 4 w) (ext 13 4 w) (ext 17 4 w) (bit (ext 31 1 w)) (ext 21 3 w) (ext 7 2 w)) else none
  | 3 => if ext 29 2 w = 0#2 then some (.vmulh (ext 9 4 w) (ext 13 4 w) (ext 17 4 w) (bit (ext 31 1 w)) (ext 21 3 w) (ext 7 2 w)) else none
  | 4 => if ext 29 2 w = 0#2 then some (.vmin (ext 9 4 w) (ext 13 4 w) (ext 17 4 w) (bit (ext 31 1 w)) (ext 21 3 w) (ext 7 2 w)) else none
  | 5 => if ext 29 2 w = 0#2 then some (.vmax (ext 9 4 w) (ext 13 4 w) (ext 17 4 w) (bit (ext 31 1 w)) (ext 21 3 w) (ext 7 2 w)) else none
  | 6 => if ext 29 2 w = 0#2 then some (.vminu (ext 9 4 w) (ext 13 4 w) (ext 17 4 w) (bit (ext 31 1 w)) (ext 21 3 w) (ext 7 2 w)) else none
  | 7 => if ext 29 2 w = 0#2 then some (.vmaxu (ext 9 4 w) (ext 13 4 w) (ext 17 4 w) (bit (ext 31 1 w)) (ext 21 3 w) (ext 7 2 w)) else none
  | 8 => if ext 29 2 w = 0#2 then some (.vand (ext 9 4 w) (ext 13 4 w) (ext 17 4 w) (bit (ext 31 1 w)) (ext 21 3 w) (ext 7 2 w)) else none
  | 9 => if ext 29 2 w = 0#2 then some (.vor (ext 9 4 w) (ext 13 4 w) (ext 17 4 w) (bit (ext 31 1 w)) (ext 21 3 w) (ext 7 2 w)) else none
  | 10 => if ext 29 2 w = 0#2 then some (.vxor (ext 9 4 w) (ext 13 4 w) (ext 17 4 w) (bit (ext 31 1 w)) (ext 21 3 w) (ext 7 2 w)) else none
  | 11 => if ext 29 2 w = 0#2 then some (.vshl (ext 9 4 w) (ext 13 4 w) (ext 17 4 w) (bit (ext 31 1 w)) (ext 21 3 w) (ext 7 2 w)) else none
  | 12 => if ext 29 2 w = 0#2 then some (.vshr (ext 9 4 w) (ext 13 4 w) (ext 17 4 w) (bit (ext 31 1 w)) (ext 21 3 w) (ext 7 2 w)) else none
  | 13 => if ext 29 2 w = 0#2 then some (.vsra (ext 9 4 w) (ext 13 4 w) (ext 17 4 w) (bit (ext 31 1 w)) (ext 21 3 w) (ext 7 2 w)) else none
  | 14 => if ext 29 2 w = 0#2 then some (.vfshl (ext 9 4 w) (ext 13 4 w) (ext 17 4 w) (bit (ext 31 1 w)) (ext 21 3 w) (ext 7 2 w)) else none
  | 15 => if ext 29 2 w = 0#2 then some (.vfshr (ext 9 4 w) (ext 13 4 w) (ext 17 4 w) (bit (ext 31 1 w)) (ext 21 3 w) (ext 7 2 w)) else none
  | 16 => if ext 29 2 w = 0#2 ∧ ext 17 4 w = 0#4 then some (.vclz (ext 9 4 w) (ext 13 4 w) (bit (ext 31 1 w)) (ext 21 3 w) (ext 7 2 w)) else none
  | 17 => if ext 29 2 w = 0#2 ∧ ext 17 4 w = 0#4 then some (.vpopc (ext 9 4 w) (ext 13 4 w) (bit (ext 31 1 w)) (ext 21 3 w) (ext 7 2 w)) else none
  | 18 => if ext 29 2 w = 0#2 ∧ ext 17 4 w = 0#4 then some (.vabs (ext 9 4 w) (ext 13 4 w) (bit (ext 31 1 w)) (ext 21 3 w) (ext 7 2 w)) else none
  | 19 => if ext 29 2 w = 0#2 then some (.vsadd (ext 9 4 w) (ext 13 4 w) (ext 17 4 w) (bit (ext 31 1 w)) (ext 21 3 w) (ext 7 2 w)) else none
  | 20 => if ext 29 2 w = 0#2 then some (.vssub (ext 9 4 w) (ext 13 4 w) (ext 17 4 w) (bit (ext 31 1 w)) (ext 21 3 w) (ext 7 2 w)) else none
  | _ => none

/-- Major 19 (VecF, 08 R133). -/
noncomputable def decodeVecF (w : BitVec 32) : Option Instr :=
  match (ext 27 4 w).toNat with
  | 0 => some (.vfadd (ext 9 4 w) (ext 13 4 w) (ext 17 4 w) (bit (ext 31 1 w)) (ext 24 3 w) (ext 21 3 w) (ext 7 2 w))
  | 1 => some (.vfsub (ext 9 4 w) (ext 13 4 w) (ext 17 4 w) (bit (ext 31 1 w)) (ext 24 3 w) (ext 21 3 w) (ext 7 2 w))
  | 2 => some (.vfmul (ext 9 4 w) (ext 13 4 w) (ext 17 4 w) (bit (ext 31 1 w)) (ext 24 3 w) (ext 21 3 w) (ext 7 2 w))
  | 3 => some (.vfma (ext 9 4 w) (ext 13 4 w) (ext 17 4 w) (bit (ext 31 1 w)) (ext 24 3 w) (ext 21 3 w) (ext 7 2 w))
  | 4 => if ext 24 3 w = 0#3 then some (.vfmin (ext 9 4 w) (ext 13 4 w) (ext 17 4 w) (bit (ext 31 1 w)) (ext 21 3 w) (ext 7 2 w)) else none
  | 5 => if ext 24 3 w = 0#3 then some (.vfmax (ext 9 4 w) (ext 13 4 w) (ext 17 4 w) (bit (ext 31 1 w)) (ext 21 3 w) (ext 7 2 w)) else none
  | 6 => if ext 17 4 w = 0#4 then some (.vfexpn (ext 9 4 w) (ext 13 4 w) (bit (ext 31 1 w)) (ext 24 3 w) (ext 21 3 w) (ext 7 2 w)) else none
  | 7 => if ext 17 4 w = 0#4 then some (.vfrcp (ext 9 4 w) (ext 13 4 w) (bit (ext 31 1 w)) (ext 24 3 w) (ext 21 3 w) (ext 7 2 w)) else none
  | 8 => some (.vfcvt (ext 9 4 w) (ext 13 4 w) (ext 17 4 w) (bit (ext 31 1 w)) (ext 24 3 w) (ext 21 3 w) (ext 7 2 w))
  | 9 => some (.vfcvtFp8 (ext 9 4 w) (ext 13 4 w) (ext 17 4 w) (bit (ext 31 1 w)) (ext 24 3 w) (ext 21 3 w) (ext 7 2 w))
  | 10 => some (.vfcvtInt (ext 9 4 w) (ext 13 4 w) (ext 17 4 w) (bit (ext 31 1 w)) (ext 24 3 w) (ext 21 3 w) (ext 7 2 w))
  | 11 => some (.vfcvtUint (ext 9 4 w) (ext 13 4 w) (ext 17 4 w) (bit (ext 31 1 w)) (ext 24 3 w) (ext 21 3 w) (ext 7 2 w))
  | _ => none

/-- Major 20 (VecM, 08 R133). -/
noncomputable def decodeVecM (w : BitVec 32) : Option Instr :=
  match (ext 28 3 w).toNat with
  | 0 => if ext 31 1 w = 0#1 ∧ ext 11 4 w = 0#4 then some (.vld (ext 7 4 w) (src 15 20 w) (ext 26 2 w) (ext 24 2 w) (ext 21 3 w)) else none
  | 1 => if ext 7 4 w = 0#4 then some (.vst (src 15 20 w) (ext 11 4 w) (bit (ext 31 1 w)) (ext 26 2 w) (ext 24 2 w) (ext 21 3 w)) else none
  | 2 => if ext 31 1 w = 0#1 ∧ ext 26 2 w = 0#2 ∧ ext 11 4 w = 0#4 then some (.vldu (ext 7 4 w) (src 15 20 w) (ext 24 2 w) (ext 21 3 w)) else none
  | 3 => if ext 26 2 w = 0#2 ∧ ext 7 4 w = 0#4 then some (.vstu (src 15 20 w) (ext 11 4 w) (bit (ext 31 1 w)) (ext 24 2 w) (ext 21 3 w)) else none
  | 4 => if ext 24 2 w = 0#2 then some (.vgath (ext 7 4 w) (src 15 20 w) (ext 11 4 w) (bit (ext 31 1 w)) (ext 26 2 w) (ext 21 3 w)) else none
  | 5 => if ext 24 2 w = 0#2 then some (.vscat (ext 7 4 w) (src 15 20 w) (ext 11 4 w) (bit (ext 31 1 w)) (ext 26 2 w) (ext 21 3 w)) else none
  | 6 => if ext 31 1 w = 0#1 ∧ ext 21 5 w = 0#5 then some (.vbcast (ext 7 4 w) (src 15 20 w) (ext 26 2 w) (ext 11 4 w)) else none
  | _ => none

/-- Major 21 (VecX, 08 R133). -/
noncomputable def decodeVecX (w : BitVec 32) : Option Instr :=
  match (ext 27 4 w).toNat with
  | 0 =>
    match (ext 24 3 w).toNat with
    | 0 => some (.vperm (ext 9 4 w) (ext 13 4 w) (ext 17 4 w) (bit (ext 31 1 w)) (ext 21 3 w) (ext 7 2 w))
    | 1 => if ext 17 4 w = 0#4 then some (.vredadd (ext 9 4 w) (ext 13 4 w) (bit (ext 31 1 w)) (ext 21 3 w) (ext 7 2 w)) else none
    | 2 => if ext 17 4 w = 0#4 then some (.vredmax (ext 9 4 w) (ext 13 4 w) (bit (ext 31 1 w)) (ext 21 3 w) (ext 7 2 w)) else none
    | 3 => if ext 17 4 w = 0#4 then some (.vredmin (ext 9 4 w) (ext 13 4 w) (bit (ext 31 1 w)) (ext 21 3 w) (ext 7 2 w)) else none
    | 4 => if ext 19 2 w = 0#2 then some (.vgmax (ext 9 4 w) (ext 17 2 w) (ext 13 4 w) (bit (ext 31 1 w)) (ext 21 3 w) (ext 7 2 w)) else none
    | 5 => if ext 19 2 w = 0#2 then some (.vgmin (ext 9 4 w) (ext 17 2 w) (ext 13 4 w) (bit (ext 31 1 w)) (ext 21 3 w) (ext 7 2 w)) else none
    | 6 => if ext 17 4 w = 0#4 then some (.vscan (ext 9 4 w) (ext 13 4 w) (bit (ext 31 1 w)) (ext 21 3 w) (ext 7 2 w)) else none
    | 7 => some (.vsel (ext 9 4 w) (ext 13 4 w) (ext 17 4 w) (bit (ext 31 1 w)) (ext 21 3 w) (ext 7 2 w))
    | _ => none
  | 1 => if ext 12 1 w = 0#1 then some (.vcmp (ext 9 3 w) (ext 24 3 w) (ext 13 4 w) (ext 17 4 w) (bit (ext 31 1 w)) (ext 21 3 w) (ext 7 2 w)) else none
  | 2 =>
    match (ext 24 2 w).toNat with
    | 0 => if ext 31 1 w = 0#1 ∧ ext 26 1 w = 0#1 ∧ ext 20 4 w = 0#4 ∧ ext 16 1 w = 0#1 ∧ ext 12 1 w = 0#1 ∧ ext 7 2 w = 0#2 then some (.mand (ext 9 3 w) (ext 13 3 w) (ext 17 3 w)) else none
    | 1 => if ext 31 1 w = 0#1 ∧ ext 26 1 w = 0#1 ∧ ext 20 4 w = 0#4 ∧ ext 16 1 w = 0#1 ∧ ext 12 1 w = 0#1 ∧ ext 7 2 w = 0#2 then some (.mor (ext 9 3 w) (ext 13 3 w) (ext 17 3 w)) else none
    | 2 => if ext 31 1 w = 0#1 ∧ ext 26 1 w = 0#1 ∧ ext 20 4 w = 0#4 ∧ ext 16 1 w = 0#1 ∧ ext 12 1 w = 0#1 ∧ ext 7 2 w = 0#2 then some (.mxor (ext 9 3 w) (ext 13 3 w) (ext 17 3 w)) else none
    | 3 => if ext 31 1 w = 0#1 ∧ ext 26 1 w = 0#1 ∧ ext 16 8 w = 0#8 ∧ ext 12 1 w = 0#1 ∧ ext 7 2 w = 0#2 then some (.mnot (ext 9 3 w) (ext 13 3 w)) else none
    | _ => none
  | 8 =>
    match (ext 26 1 w).toNat with
    | 0 => some (.vslide (ext 7 4 w) (src 15 20 w) (ext 11 4 w) (bit (ext 31 1 w)) (ext 24 2 w) (ext 21 3 w))
    | 1 => if ext 20 4 w = 0#4 then some (.vmovx (ext 15 5 w) (ext 7 4 w) (ext 11 4 w) (bit (ext 31 1 w)) (ext 24 2 w)) else none
    | _ => none
  | 9 =>
    match (ext 26 1 w).toNat with
    | 0 => if ext 31 1 w = 0#1 ∧ ext 21 3 w = 0#3 then some (.vins (ext 7 4 w) (ext 11 4 w) (src 15 20 w) (ext 24 2 w)) else none
    | 1 => if ext 31 1 w = 0#1 ∧ ext 20 6 w = 0#6 ∧ ext 7 4 w = 0#4 then some (.mpop (ext 15 5 w) (ext 11 4 w)) else none
    | _ => none
  | 10 =>
    match (ext 26 1 w).toNat with
    | 0 => if ext 31 1 w = 0#1 ∧ ext 20 6 w = 0#6 ∧ ext 7 4 w = 0#4 then some (.mfirst (ext 15 5 w) (ext 11 4 w)) else none
    | 1 => if ext 31 1 w = 0#1 ∧ ext 21 5 w = 0#5 ∧ ext 11 4 w = 0#4 then some (.mgen (ext 7 4 w) (src 15 20 w)) else none
    | _ => none
  | _ => none

/-- Major 22 (Tile, 08 R133). -/
noncomputable def decodeTile (w : BitVec 32) : Option Instr :=
  match (ext 26 3 w).toNat with
  | 0 => if ext 29 3 w = 0#3 ∧ ext 18 1 w = 0#1 ∧ ext 11 1 w = 0#1 then some (.tdecl (ext 7 4 w) (src 12 17 w) (bit (ext 25 1 w)) (ext 19 6 w)) else none
  | 1 => if ext 29 3 w = 0#3 ∧ ext 7 12 w = 0#12 then some (.tfree (bit (ext 25 1 w)) (ext 19 6 w)) else none
  | 2 => if ext 29 3 w = 0#3 ∧ ext 18 1 w = 0#1 ∧ ext 7 5 w = 0#5 then some (.tgive (src 12 17 w) (bit (ext 25 1 w)) (ext 19 6 w)) else none
  | 3 => if ext 29 3 w = 0#3 ∧ ext 7 12 w = 0#12 then some (.ttake (bit (ext 25 1 w)) (ext 19 6 w)) else none
  | 4 => if ext 29 3 w = 0#3 ∧ ext 7 12 w = 0#12 then some (.twait (bit (ext 25 1 w)) (ext 19 6 w)) else none
  | 5 => if ext 29 3 w = 0#3 ∧ ext 25 1 w = 0#1 ∧ ext 12 7 w = 0#7 then some (.tstat (ext 7 5 w) (ext 19 6 w)) else none
  | 6 => if ext 29 3 w = 0#3 ∧ ext 18 8 w = 0#8 ∧ ext 7 5 w = 0#5 then some (.tfmt (src 12 17 w)) else none
  | 7 => if ext 29 3 w = 0#3 ∧ ext 8 11 w = 0#11 then some (.ttrl (bit (ext 25 1 w)) (ext 19 6 w) (bit (ext 7 1 w))) else none
  | _ => none

/-- Major 23 (Engine, 08 R133). -/
noncomputable def decodeEngine (w : BitVec 32) : Option Instr :=
  match (ext 24 4 w).toNat with
  | 0 => if ext 28 4 w = 8#4 ∧ ext 18 6 w = 0#6 ∧ ext 7 5 w = 0#5 then some (.tsub (src 12 17 w)) else none
  | 1 => if ext 28 4 w = 8#4 ∧ ext 18 6 w = 0#6 then some (.tqry (ext 7 5 w) (src 12 17 w)) else none
  | 2 => if ext 28 4 w = 8#4 ∧ ext 18 6 w = 0#6 ∧ ext 7 5 w = 0#5 then some (.xcopy (src 12 17 w)) else none
  | 3 => if ext 28 4 w = 8#4 ∧ ext 22 1 w = 0#1 ∧ ext 7 5 w = 0#5 then some (.skbc (src 12 17 w) (ext 18 4 w) (bit (ext 23 1 w))) else none
  | 4 => if ext 28 4 w = 8#4 ∧ ext 7 5 w = 0#5 then some (.xstrm (src 12 17 w) (src 18 23 w)) else none
  | 8 => if ext 28 4 w = 8#4 ∧ ext 7 5 w = 0#5 then some (.sbpld (src 12 17 w) (src 18 23 w)) else none
  | 9 => if ext 28 4 w = 8#4 ∧ ext 18 6 w = 0#6 then some (.sbprd (ext 7 5 w) (src 12 17 w)) else none
  | _ => none

/-- Major 24 (Ray, 08 R133). -/
noncomputable def decodeRay (w : BitVec 32) : Option Instr :=
  match (ext 24 4 w).toNat with
  | 0 => if ext 28 4 w = 0#4 ∧ ext 18 6 w = 0#6 then some (.raynew (ext 7 5 w) (src 12 17 w)) else none
  | 1 => if ext 28 4 w = 0#4 ∧ ext 18 6 w = 0#6 ∧ ext 7 5 w = 0#5 then some (.raygo (src 12 17 w)) else none
  | 2 => if ext 28 4 w = 0#4 ∧ ext 7 5 w = 0#5 then some (.spsrc (src 12 17 w) (src 18 23 w)) else none
  | 3 => if ext 28 4 w = 0#4 ∧ ext 7 5 w = 0#5 then some (.spins (src 12 17 w) (src 18 23 w)) else none
  | 4 => if ext 28 4 w = 0#4 ∧ ext 7 5 w = 0#5 then some (.spsettle (src 12 17 w) (src 18 23 w)) else none
  | 5 => if ext 28 4 w = 0#4 ∧ ext 18 6 w = 0#6 ∧ ext 7 5 w = 0#5 then some (.spdone (src 12 17 w)) else none
  | 6 => if ext 28 4 w = 0#4 then some (.sprd (ext 7 5 w) (src 12 17 w) (src 18 23 w)) else none
  | 7 => if ext 28 4 w = 0#4 ∧ ext 18 6 w = 0#6 ∧ ext 7 5 w = 0#5 then some (.raystop (src 12 17 w)) else none
  | 8 => if ext 28 4 w = 0#4 ∧ ext 18 6 w = 0#6 ∧ ext 7 5 w = 0#5 then some (.rayfree (src 12 17 w)) else none
  | _ => none

/-- Major 25 (Gfx, 08 R133). -/
noncomputable def decodeGfx (w : BitVec 32) : Option Instr :=
  match (ext 24 2 w).toNat with
  | 0 => if ext 26 6 w = 0#6 then some (.vbmin (ext 7 5 w) (src 12 17 w) (src 18 23 w)) else none
  | 1 => if ext 26 6 w = 0#6 ∧ ext 7 5 w = 0#5 then some (.wgemit (src 12 17 w) (src 18 23 w)) else none
  | 2 => if ext 26 6 w = 0#6 ∧ ext 18 6 w = 0#6 ∧ ext 7 5 w = 0#5 then some (.wgfin (src 12 17 w)) else none
  | _ => none

/-- Major 26 (Sys, 08 R133). -/
noncomputable def decodeSys (w : BitVec 32) : Option Instr :=
  match (ext 29 3 w).toNat with
  | 0 => if ext 12 6 w = 0#6 then some (.csrr (ext 7 5 w) (ext 18 11 w)) else none
  | 1 => if ext 7 5 w = 0#5 then some (.csrw (src 12 17 w) (ext 18 11 w)) else none
  | 2 => some (.csrx (ext 7 5 w) (src 12 17 w) (ext 18 11 w))
  | 3 => if ext 7 11 w = 0#11 then some (.hcall (ext 18 11 w)) else none
  | 4 =>
    match (ext 24 3 w).toNat with
    | 0 => if ext 27 2 w = 0#2 ∧ ext 7 17 w = 0#17 then some (.eret) else none
    | 1 => if ext 27 2 w = 0#2 ∧ ext 7 17 w = 0#17 then some (.wfi) else none
    | 2 => if ext 27 2 w = 0#2 ∧ ext 7 5 w = 0#5 then some (.tlbw (src 12 17 w) (src 18 23 w)) else none
    | 3 => if ext 27 2 w = 0#2 ∧ ext 18 6 w = 0#6 ∧ ext 7 5 w = 0#5 then some (.tlbi (src 12 17 w)) else none
    | 4 => if ext 27 2 w = 0#2 ∧ ext 18 6 w = 0#6 then some (.tlbp (ext 7 5 w) (src 12 17 w)) else none
    | 5 => if ext 27 2 w = 0#2 ∧ ext 18 6 w = 0#6 ∧ ext 7 5 w = 0#5 then some (.ctxsv (src 12 17 w)) else none
    | 6 => if ext 27 2 w = 0#2 ∧ ext 18 6 w = 0#6 ∧ ext 7 5 w = 0#5 then some (.ctxld (src 12 17 w)) else none
    | 7 => if ext 27 2 w = 0#2 ∧ ext 12 12 w = 0#12 then some (.snap (ext 7 5 w)) else none
    | _ => none
  | _ => none

/-- `base(w, major)` of 08 R140: the instruction of a 32-bit word, by its major [6:2] (R133). Majors 27 and 28 are
reserved, 29 holds no encoding of this manual, 30 and 31 are handled by `decodeAt`. -/
noncomputable def decodeBase (w : BitVec 32) : Option Instr :=
  match (ext 2 5 w).toNat with
  | 0 => decodeAluR w
  | 1 => decodeAluI w
  | 2 => decodeShift w
  | 3 => decodeMulDiv w
  | 4 => decodeCap w
  | 5 => decodeBranch w
  | 6 => decodeJump w
  | 7 => decodeJreg w
  | 8 => decodeLoad w
  | 9 => decodeStore w
  | 10 => decodeStream w
  | 11 => decodeDq w
  | 12 => decodeFence w
  | 13 => decodeAtomic w
  | 14 => decodeMsg w
  | 15 => decodeGroup w
  | 16 => decodeFpS w
  | 17 => decodeFpCvt w
  | 18 => decodeVecI w
  | 19 => decodeVecF w
  | 20 => decodeVecM w
  | 21 => decodeVecX w
  | 22 => decodeTile w
  | 23 => decodeEngine w
  | 24 => decodeRay w
  | 25 => decodeGfx w
  | 26 => decodeSys w
  | _ => none

/-- `compact(h)` of 08 R140: the instruction of a compact halfword (R135, R136), by its low five bits. -/
noncomputable def decodeCompact (w : BitVec 16) : Option Instr :=
  match (ext 0 5 w).toNat with
  | 2 => if ext 11 5 w = 0#5 then some (.cMov (ext 5 3 w) (ext 8 3 w)) else none
  | 4 => if ext 11 5 w = 0#5 then some (.cAdd (ext 5 3 w) (ext 8 3 w)) else none
  | 6 => if ext 11 5 w = 0#5 then some (.cSub (ext 5 3 w) (ext 8 3 w)) else none
  | 8 => some (.cAddi (ext 5 3 w) (ext 8 8 w))
  | 10 => some (.cLdi (ext 5 3 w) (ext 8 8 w))
  | 12 => some (.cLw (ext 5 3 w) (ext 8 3 w) (ext 11 5 w))
  | 14 => some (.cSw (ext 5 3 w) (ext 8 3 w) (ext 11 5 w))
  | 16 => some (.cBeqz (ext 5 3 w) (ext 8 8 w))
  | 18 => some (.cBnez (ext 5 3 w) (ext 8 8 w))
  | 20 => some (.cJ (ext 5 11 w))
  | 22 => some (.cCwait (ext 5 6 w) (ext 11 5 w))
  | 24 =>
    match (ext 5 11 w).toNat with
    | 0 => some .cNop
    | 1 => some .cDone
    | 2 => some .cRet
    | _ => none
  | _ => none

/-- `long(w, w2)` of 08 R140: the long instructions by long-major (R132), with the fields of R145, R163 and R201. -/
noncomputable def decodeLong (w w2 : BitVec 32) : Option Instr :=
  match (ext 27 5 w).toNat with
  | 0 => some (.ldiL (ext 22 5 w) (ext 7 25 w2 ++ ext 7 15 w))
  | 1 => some (.bL (ext 24 3 w) (src 12 17 w) (src 18 23 w) (ext 7 25 w2 ++ ext 7 5 w))
  | 2 =>
    if ext 7 11 w2 = 0#11 then
      some (.sendL (ext 7 5 w) (src 18 23 w2) (ext 19 8 w) (src 12 17 w) (ext 24 8 w2) (bit (ext 18 1 w)))
    else none
  | _ => none

/-- An instruction and its size in bytes, or the reason there is none. -/
abbrev Decoded := Except Reject (Instr × Nat)

/-- What a table look-up that may fail decodes to. -/
def Decoded.ofOption (o : Option Instr) (size : Nat) : Decoded :=
  match o with
  | some i => .ok (i, size)
  | none => .error .illegal

/-- `decode_at` of 08 R127, over the aligned word at pc, the next aligned word, and whether pc mod 4 is 2. A word that is
no row of the table is illegal; major 30 executed is a branch into an instruction (R134). -/
noncomputable def decodeAt (w w2 : BitVec 32) (upper : Bool) : Decoded :=
  if ext 0 1 w = 0#1 then
    if ext 16 1 w = 1#1 then .error .illegal
    else Decoded.ofOption (decodeCompact (if upper then ext 16 16 w else ext 0 16 w)) 2
  else if ext 0 2 w = 1#2 then .error .illegal
  else if upper then .error .branchInto
  else if ext 2 5 w = 30#5 then .error .branchInto
  else if ext 2 5 w = 31#5 then
    if ext 0 7 w2 = 123#7 then Decoded.ofOption (decodeLong w w2) 8 else .error .illegal
  else Decoded.ofOption (decodeBase w) 4

/-- `next_pc(pc) - pc` of 08 R140: sized from the same bits as `decodeAt`, and never trapping. -/
def sizeAt (w : BitVec 32) (upper : Bool) : Nat :=
  if upper then 2
  else if ext 0 1 w = 0#1 then 2
  else if ext 2 5 w = 31#5 then 8
  else 4

/-- The little-endian value of up to four bytes (00 R3). -/
def wordOfBytes : List Byte → BitVec 32
  | b0 :: b1 :: b2 :: b3 :: _ => b3 ++ b2 ++ b1 ++ b0
  | [b0, b1, b2] => 0#8 ++ b2 ++ b1 ++ b0
  | [b0, b1] => 0#16 ++ b1 ++ b0
  | [b0] => 0#24 ++ b0
  | [] => 0#32

/-- The instruction at the start of a list of bytes that begins at a word-aligned address. -/
noncomputable def decodeBytes (bs : List Byte) : Decoded := decodeAt (wordOfBytes bs) (wordOfBytes (bs.drop 4)) false

/-- The eight bytes of an instruction whose bits are `w`, in the order they lie in memory. -/
def bytesOfBits (w : Nat) : List Byte := (List.range 8).map fun k => BitVec.ofNat 8 (w >>> (8 * k))

/-- The host's view of the decoder: the instruction read from bits numbered as the opcode table numbers them. -/
noncomputable def decodeTableWord (nbits w : Nat) : Option Instr :=
  match decodeBytes (bytesOfBits (w % 2 ^ nbits)) with
  | .ok (i, _) => some i
  | .error _ => none

/-- The words of one instruction: a compact halfword, a 32-bit word, or the two words of a long instruction. -/
inductive Code where
  | half (h : BitVec 16)
  | word (w : BitVec 32)
  | long (w w2 : BitVec 32)
deriving DecidableEq, Repr

/-- One field of an encoding: its width and its value. -/
abbrev Field := Nat × Nat

/-- A field that holds these bits. -/
def bits {n : Nat} (x : BitVec n) : Field := (n, x.toNat)

/-- The wait bit of a source (08 R129). -/
def mark (a : Src) : Field := bits (BitVec.ofBool a.mark)

/-- The value of a list of fields, the highest first. -/
def packNat : List Field → Nat
  | [] => 0
  | f :: fs => f.2 <<< (fs.map Prod.fst).sum + packNat fs

/-- The word that holds a list of fields, the highest first, down to bit 0 (08 R128, R135). -/
def pack {n : Nat} (fs : List Field) : BitVec n := BitVec.ofNat n (packNat fs)

/-- The words of an instruction, from the encoding tables of the spec; an event has none. -/
def encode (i : Instr) : Option Code :=
  match i with
  | .add d a b => some (.word (pack [bits 0#3, bits 0#5, mark b, bits b.reg, mark a, bits a.reg, bits d, bits 3#7]))
  | .sub d a b => some (.word (pack [bits 0#3, bits 1#5, mark b, bits b.reg, mark a, bits a.reg, bits d, bits 3#7]))
  | .and d a b => some (.word (pack [bits 0#3, bits 2#5, mark b, bits b.reg, mark a, bits a.reg, bits d, bits 3#7]))
  | .or d a b => some (.word (pack [bits 0#3, bits 3#5, mark b, bits b.reg, mark a, bits a.reg, bits d, bits 3#7]))
  | .xor d a b => some (.word (pack [bits 0#3, bits 4#5, mark b, bits b.reg, mark a, bits a.reg, bits d, bits 3#7]))
  | .andn d a b => some (.word (pack [bits 0#3, bits 5#5, mark b, bits b.reg, mark a, bits a.reg, bits d, bits 3#7]))
  | .orn d a b => some (.word (pack [bits 0#3, bits 6#5, mark b, bits b.reg, mark a, bits a.reg, bits d, bits 3#7]))
  | .min d a b => some (.word (pack [bits 0#3, bits 8#5, mark b, bits b.reg, mark a, bits a.reg, bits d, bits 3#7]))
  | .max d a b => some (.word (pack [bits 0#3, bits 9#5, mark b, bits b.reg, mark a, bits a.reg, bits d, bits 3#7]))
  | .minu d a b => some (.word (pack [bits 0#3, bits 10#5, mark b, bits b.reg, mark a, bits a.reg, bits d, bits 3#7]))
  | .maxu d a b => some (.word (pack [bits 0#3, bits 11#5, mark b, bits b.reg, mark a, bits a.reg, bits d, bits 3#7]))
  | .slt d a b => some (.word (pack [bits 0#3, bits 12#5, mark b, bits b.reg, mark a, bits a.reg, bits d, bits 3#7]))
  | .sltu d a b => some (.word (pack [bits 0#3, bits 13#5, mark b, bits b.reg, mark a, bits a.reg, bits d, bits 3#7]))
  | .seq d a b => some (.word (pack [bits 0#3, bits 14#5, mark b, bits b.reg, mark a, bits a.reg, bits d, bits 3#7]))
  | .sel d a b => some (.word (pack [bits 0#3, bits 16#5, mark b, bits b.reg, mark a, bits a.reg, bits d, bits 3#7]))
  | .abs d a => some (.word (pack [bits 0#3, bits 17#5, bits 0#6, mark a, bits a.reg, bits d, bits 3#7]))
  | .addi d a i => some (.word (pack [bits 0#3, bits i, mark a, bits a.reg, bits d, bits 7#7]))
  | .andi d a i => some (.word (pack [bits 1#3, bits i, mark a, bits a.reg, bits d, bits 7#7]))
  | .ori d a i => some (.word (pack [bits 2#3, bits i, mark a, bits a.reg, bits d, bits 7#7]))
  | .xori d a i => some (.word (pack [bits 3#3, bits i, mark a, bits a.reg, bits d, bits 7#7]))
  | .slti d a i => some (.word (pack [bits 4#3, bits i, mark a, bits a.reg, bits d, bits 7#7]))
  | .sltiu d a i => some (.word (pack [bits 5#3, bits i, mark a, bits a.reg, bits d, bits 7#7]))
  | .ldi d i => some (.word (pack [bits 6#3, bits i, bits 0#6, bits d, bits 7#7]))
  | .ldiL d i => some (.long (pack [bits 0#5, bits d, bits (ext 0 15 i), bits 127#7]) (pack [bits (ext 15 25 i), bits 123#7]))
  | .shl d a b => some (.word (pack [bits 0#3, bits 0#5, mark b, bits b.reg, mark a, bits a.reg, bits d, bits 11#7]))
  | .shr d a b => some (.word (pack [bits 0#3, bits 1#5, mark b, bits b.reg, mark a, bits a.reg, bits d, bits 11#7]))
  | .sra d a b => some (.word (pack [bits 0#3, bits 2#5, mark b, bits b.reg, mark a, bits a.reg, bits d, bits 11#7]))
  | .rot d a b => some (.word (pack [bits 0#3, bits 3#5, mark b, bits b.reg, mark a, bits a.reg, bits d, bits 11#7]))
  | .fshl d a b => some (.word (pack [bits 0#3, bits 4#5, mark b, bits b.reg, mark a, bits a.reg, bits d, bits 11#7]))
  | .fshr d a b => some (.word (pack [bits 0#3, bits 5#5, mark b, bits b.reg, mark a, bits a.reg, bits d, bits 11#7]))
  | .shli d a i => some (.word (pack [bits 0#3, bits 8#5, bits i, mark a, bits a.reg, bits d, bits 11#7]))
  | .shri d a i => some (.word (pack [bits 0#3, bits 9#5, bits i, mark a, bits a.reg, bits d, bits 11#7]))
  | .srai d a i => some (.word (pack [bits 0#3, bits 10#5, bits i, mark a, bits a.reg, bits d, bits 11#7]))
  | .roti d a i => some (.word (pack [bits 0#3, bits 11#5, bits i, mark a, bits a.reg, bits d, bits 11#7]))
  | .clz d a => some (.word (pack [bits 0#3, bits 16#5, bits 0#6, mark a, bits a.reg, bits d, bits 11#7]))
  | .ctz d a => some (.word (pack [bits 0#3, bits 17#5, bits 0#6, mark a, bits a.reg, bits d, bits 11#7]))
  | .popc d a => some (.word (pack [bits 0#3, bits 18#5, bits 0#6, mark a, bits a.reg, bits d, bits 11#7]))
  | .brev d a => some (.word (pack [bits 0#3, bits 19#5, bits 0#6, mark a, bits a.reg, bits d, bits 11#7]))
  | .sext d a n => some (.word (pack [bits 0#3, bits 20#5, bits n, mark a, bits a.reg, bits d, bits 11#7]))
  | .zext d a n => some (.word (pack [bits 0#3, bits 21#5, bits n, mark a, bits a.reg, bits d, bits 11#7]))
  | .bext d a b => some (.word (pack [bits 0#3, bits 24#5, mark b, bits b.reg, mark a, bits a.reg, bits d, bits 11#7]))
  | .bins d a b => some (.word (pack [bits 0#3, bits 25#5, mark b, bits b.reg, mark a, bits a.reg, bits d, bits 11#7]))
  | .mul d a b => some (.word (pack [bits 0#5, bits 0#3, mark b, bits b.reg, mark a, bits a.reg, bits d, bits 15#7]))
  | .mulh d a b => some (.word (pack [bits 0#5, bits 1#3, mark b, bits b.reg, mark a, bits a.reg, bits d, bits 15#7]))
  | .mulhu d a b => some (.word (pack [bits 0#5, bits 2#3, mark b, bits b.reg, mark a, bits a.reg, bits d, bits 15#7]))
  | .mulhm d a b => some (.word (pack [bits 0#5, bits 3#3, mark b, bits b.reg, mark a, bits a.reg, bits d, bits 15#7]))
  | .div d a b => some (.word (pack [bits 0#5, bits 4#3, mark b, bits b.reg, mark a, bits a.reg, bits d, bits 15#7]))
  | .divu d a b => some (.word (pack [bits 0#5, bits 5#3, mark b, bits b.reg, mark a, bits a.reg, bits d, bits 15#7]))
  | .rem d a b => some (.word (pack [bits 0#5, bits 6#3, mark b, bits b.reg, mark a, bits a.reg, bits d, bits 15#7]))
  | .remu d a b => some (.word (pack [bits 0#5, bits 7#3, mark b, bits b.reg, mark a, bits a.reg, bits d, bits 15#7]))
  | .csetb d a b => some (.word (pack [bits 0#1, bits 0#2, bits 0#2, bits 0#3, mark b, bits b.reg, mark a, bits a.reg, bits d, bits 19#7]))
  | .cperm d a b => some (.word (pack [bits 0#1, bits 0#2, bits 0#2, bits 1#3, mark b, bits b.reg, mark a, bits a.reg, bits d, bits 19#7]))
  | .cinc d a b => some (.word (pack [bits 0#1, bits 0#2, bits 0#2, bits 2#3, mark b, bits b.reg, mark a, bits a.reg, bits d, bits 19#7]))
  | .cmesh d a b => some (.word (pack [bits 0#1, bits 0#2, bits 0#2, bits 3#3, mark b, bits b.reg, mark a, bits a.reg, bits d, bits 19#7]))
  | .ctest d a b => some (.word (pack [bits 0#1, bits 0#2, bits 0#2, bits 4#3, mark b, bits b.reg, mark a, bits a.reg, bits d, bits 19#7]))
  | .cclr d a => some (.word (pack [bits 0#1, bits 0#2, bits 0#2, bits 5#3, bits 0#6, mark a, bits a.reg, bits d, bits 19#7]))
  | .cinci d a i => some (.word (pack [bits 0#1, bits 1#2, bits i, mark a, bits a.reg, bits d, bits 19#7]))
  | .cget d f a => some (.word (pack [bits 0#1, bits 2#2, bits f, mark a, bits a.reg, bits d, bits 19#7]))
  | .beq a b o => some (.word (pack [bits (ext 5 5 o), bits 0#3, mark b, bits b.reg, mark a, bits a.reg, bits (ext 0 5 o), bits 23#7]))
  | .bne a b o => some (.word (pack [bits (ext 5 5 o), bits 1#3, mark b, bits b.reg, mark a, bits a.reg, bits (ext 0 5 o), bits 23#7]))
  | .blt a b o => some (.word (pack [bits (ext 5 5 o), bits 4#3, mark b, bits b.reg, mark a, bits a.reg, bits (ext 0 5 o), bits 23#7]))
  | .bge a b o => some (.word (pack [bits (ext 5 5 o), bits 5#3, mark b, bits b.reg, mark a, bits a.reg, bits (ext 0 5 o), bits 23#7]))
  | .bltu a b o => some (.word (pack [bits (ext 5 5 o), bits 6#3, mark b, bits b.reg, mark a, bits a.reg, bits (ext 0 5 o), bits 23#7]))
  | .bgeu a b o => some (.word (pack [bits (ext 5 5 o), bits 7#3, mark b, bits b.reg, mark a, bits a.reg, bits (ext 0 5 o), bits 23#7]))
  | .jal d o => some (.word (pack [bits o, bits d, bits 27#7]))
  | .bL c a b o => some (.long (pack [bits 1#5, bits c, mark b, bits b.reg, mark a, bits a.reg, bits (ext 0 5 o), bits 127#7]) (pack [bits (ext 5 25 o), bits 123#7]))
  | .jr a => some (.word (pack [bits 0#1, bits 0#2, bits 0#2, bits 0#3, bits 0#6, mark a, bits a.reg, bits 0#5, bits 31#7]))
  | .jalr d a => some (.word (pack [bits 0#1, bits 0#2, bits 0#2, bits 1#3, bits 0#6, mark a, bits a.reg, bits d, bits 31#7]))
  | .done => some (.word (pack [bits 0#1, bits 0#2, bits 0#2, bits 2#3, bits 0#17, bits 31#7]))
  | .yield => some (.word (pack [bits 0#1, bits 0#2, bits 0#2, bits 3#3, bits 0#17, bits 31#7]))
  | .nop => some (.word (pack [bits 0#1, bits 0#2, bits 0#2, bits 5#3, bits 0#17, bits 31#7]))
  | .waitf d => some (.word (pack [bits 0#1, bits 0#2, bits 0#2, bits 6#3, bits 0#12, bits d, bits 31#7]))
  | .loop a e => some (.word (pack [bits 0#1, bits 1#2, bits e, mark a, bits a.reg, bits 0#5, bits 31#7]))
  | .trap c => some (.word (pack [bits 0#1, bits 2#2, bits c, bits 0#11, bits 31#7]))
  | .loopi n e => some (.word (pack [bits 1#1, bits n, bits e, bits 31#7]))
  | .lb d a i => some (.word (pack [bits i, bits 0#3, mark a, bits a.reg, bits d, bits 35#7]))
  | .lh d a i => some (.word (pack [bits i, bits 1#3, mark a, bits a.reg, bits d, bits 35#7]))
  | .lw d a i => some (.word (pack [bits i, bits 2#3, mark a, bits a.reg, bits d, bits 35#7]))
  | .ld d a i => some (.word (pack [bits i, bits 3#3, mark a, bits a.reg, bits d, bits 35#7]))
  | .lbu d a i => some (.word (pack [bits i, bits 4#3, mark a, bits a.reg, bits d, bits 35#7]))
  | .lhu d a i => some (.word (pack [bits i, bits 5#3, mark a, bits a.reg, bits d, bits 35#7]))
  | .lwu d a i => some (.word (pack [bits i, bits 6#3, mark a, bits a.reg, bits d, bits 35#7]))
  | .lq d a i => some (.word (pack [bits i, bits 7#3, mark a, bits a.reg, bits d, bits 35#7]))
  | .sb a b i => some (.word (pack [bits i, mark b, bits b.reg, mark a, bits a.reg, bits 0#5, bits 39#7]))
  | .sh a b i => some (.word (pack [bits i, mark b, bits b.reg, mark a, bits a.reg, bits 1#5, bits 39#7]))
  | .sw a b i => some (.word (pack [bits i, mark b, bits b.reg, mark a, bits a.reg, bits 2#5, bits 39#7]))
  | .sd a b i => some (.word (pack [bits i, mark b, bits b.reg, mark a, bits a.reg, bits 3#5, bits 39#7]))
  | .sq a b i => some (.word (pack [bits i, mark b, bits b.reg, mark a, bits a.reg, bits 4#5, bits 39#7]))
  | .sbPostinc a b i => some (.word (pack [bits i, mark b, bits b.reg, mark a, bits a.reg, bits 8#5, bits 39#7]))
  | .shPostinc a b i => some (.word (pack [bits i, mark b, bits b.reg, mark a, bits a.reg, bits 9#5, bits 39#7]))
  | .swPostinc a b i => some (.word (pack [bits i, mark b, bits b.reg, mark a, bits a.reg, bits 10#5, bits 39#7]))
  | .sdPostinc a b i => some (.word (pack [bits i, mark b, bits b.reg, mark a, bits a.reg, bits 11#5, bits 39#7]))
  | .sqPostinc a b i => some (.word (pack [bits i, mark b, bits b.reg, mark a, bits a.reg, bits 12#5, bits 39#7]))
  | .lbPostinc d a i => some (.word (pack [bits i, bits 0#1, bits d, mark a, bits a.reg, bits 16#5, bits 39#7]))
  | .lhPostinc d a i => some (.word (pack [bits i, bits 0#1, bits d, mark a, bits a.reg, bits 17#5, bits 39#7]))
  | .lwPostinc d a i => some (.word (pack [bits i, bits 0#1, bits d, mark a, bits a.reg, bits 18#5, bits 39#7]))
  | .ldPostinc d a i => some (.word (pack [bits i, bits 0#1, bits d, mark a, bits a.reg, bits 19#5, bits 39#7]))
  | .lbuPostinc d a i => some (.word (pack [bits i, bits 0#1, bits d, mark a, bits a.reg, bits 20#5, bits 39#7]))
  | .lhuPostinc d a i => some (.word (pack [bits i, bits 0#1, bits d, mark a, bits a.reg, bits 21#5, bits 39#7]))
  | .lwuPostinc d a i => some (.word (pack [bits i, bits 0#1, bits d, mark a, bits a.reg, bits 22#5, bits 39#7]))
  | .lqPostinc d a i => some (.word (pack [bits i, bits 0#1, bits d, mark a, bits a.reg, bits 23#5, bits 39#7]))
  | .lea d a s i => some (.word (pack [bits 0#1, bits 1#1, bits s, bits i, mark a, bits a.reg, bits d, bits 43#7]))
  | .sbind d g a e => some (.word (pack [bits 0#1, bits 0#1, bits 0#3, bits 1#3, bits 0#2, bits g, bits e, mark a, bits a.reg, bits d, bits 43#7]))
  | .sbindA d g a e => some (.word (pack [bits 0#1, bits 0#1, bits 0#3, bits 2#3, bits 0#2, bits g, bits e, mark a, bits a.reg, bits d, bits 43#7]))
  | .sunbind d => some (.word (pack [bits 0#1, bits 0#1, bits 0#3, bits 3#3, bits 0#12, bits d, bits 43#7]))
  | .sstat d g => some (.word (pack [bits 0#1, bits 0#1, bits 0#3, bits 4#3, bits 0#2, bits g, bits 0#8, bits d, bits 43#7]))
  | .streamFetch _ _ _ => none
  | .dpull d c a b => some (.word (pack [bits 0#2, bits c, mark b, bits b.reg, mark a, bits a.reg, bits d, bits 47#7]))
  | .dpush d c a b => some (.word (pack [bits 1#2, bits c, mark b, bits b.reg, mark a, bits a.reg, bits d, bits 47#7]))
  | .dgath d c a b => some (.word (pack [bits 2#2, bits c, mark b, bits b.reg, mark a, bits a.reg, bits d, bits 47#7]))
  | .cwait c i => some (.word (pack [bits 3#2, bits 0#1, bits 0#3, bits 0#1, bits c, bits 0#1, bits i, bits 47#7]))
  | .cwaitReg c a => some (.word (pack [bits 3#2, bits 0#1, bits 1#3, bits 0#1, bits c, bits 0#1, mark a, bits a.reg, bits 0#5, bits 47#7]))
  | .cadd c i => some (.word (pack [bits 3#2, bits 0#1, bits 2#3, bits 0#1, bits c, bits 0#1, bits i, bits 47#7]))
  | .caddReg c a => some (.word (pack [bits 3#2, bits 0#1, bits 3#3, bits 0#1, bits c, bits 0#1, mark a, bits a.reg, bits 0#5, bits 47#7]))
  | .cset c i => some (.word (pack [bits 3#2, bits 0#1, bits 4#3, bits 0#1, bits c, bits 0#1, bits i, bits 47#7]))
  | .csetReg c a => some (.word (pack [bits 3#2, bits 0#1, bits 5#3, bits 0#1, bits c, bits 0#1, mark a, bits a.reg, bits 0#5, bits 47#7]))
  | .crd d c => some (.word (pack [bits 3#2, bits 0#1, bits 6#3, bits 0#1, bits c, bits 0#7, bits d, bits 47#7]))
  | .fenceC p q => some (.word (pack [bits 0#4, bits 0#4, bits 0#1, bits p, bits 0#1, bits q, bits 0#5, bits 51#7]))
  | .fenceS p q => some (.word (pack [bits 0#4, bits 1#4, bits 0#1, bits p, bits 0#1, bits q, bits 0#5, bits 51#7]))
  | .fenceD p q => some (.word (pack [bits 0#4, bits 2#4, bits 0#1, bits p, bits 0#1, bits q, bits 0#5, bits 51#7]))
  | .fenceP p q => some (.word (pack [bits 0#4, bits 3#4, bits 0#1, bits p, bits 0#1, bits q, bits 0#5, bits 51#7]))
  | .fenceY p q => some (.word (pack [bits 0#4, bits 4#4, bits 0#1, bits p, bits 0#1, bits q, bits 0#5, bits 51#7]))
  | .afence => some (.word (pack [bits 0#4, bits 8#4, bits 0#17, bits 51#7]))
  | .ifence => some (.word (pack [bits 0#4, bits 9#4, bits 0#17, bits 51#7]))
  | .aadd d a b z => some (.word (pack [bits 0#2, bits 0#3, bits (BitVec.ofBool z), bits 0#2, mark b, bits b.reg, mark a, bits a.reg, bits d, bits 55#7]))
  | .aand d a b z => some (.word (pack [bits 0#2, bits 1#3, bits (BitVec.ofBool z), bits 0#2, mark b, bits b.reg, mark a, bits a.reg, bits d, bits 55#7]))
  | .aor d a b z => some (.word (pack [bits 0#2, bits 2#3, bits (BitVec.ofBool z), bits 0#2, mark b, bits b.reg, mark a, bits a.reg, bits d, bits 55#7]))
  | .axor d a b z => some (.word (pack [bits 0#2, bits 3#3, bits (BitVec.ofBool z), bits 0#2, mark b, bits b.reg, mark a, bits a.reg, bits d, bits 55#7]))
  | .amin d a b z => some (.word (pack [bits 0#2, bits 4#3, bits (BitVec.ofBool z), bits 0#2, mark b, bits b.reg, mark a, bits a.reg, bits d, bits 55#7]))
  | .amax d a b z => some (.word (pack [bits 0#2, bits 5#3, bits (BitVec.ofBool z), bits 0#2, mark b, bits b.reg, mark a, bits a.reg, bits d, bits 55#7]))
  | .aminu d a b z => some (.word (pack [bits 0#2, bits 6#3, bits (BitVec.ofBool z), bits 0#2, mark b, bits b.reg, mark a, bits a.reg, bits d, bits 55#7]))
  | .amaxu d a b z => some (.word (pack [bits 0#2, bits 7#3, bits (BitVec.ofBool z), bits 0#2, mark b, bits b.reg, mark a, bits a.reg, bits d, bits 55#7]))
  | .aswp d a b z => some (.word (pack [bits 1#2, bits 0#3, bits (BitVec.ofBool z), bits 0#2, mark b, bits b.reg, mark a, bits a.reg, bits d, bits 55#7]))
  | .acas d a b z => some (.word (pack [bits 1#2, bits 1#3, bits (BitVec.ofBool z), bits 0#2, mark b, bits b.reg, mark a, bits a.reg, bits d, bits 55#7]))
  | .afadd d a b z => some (.word (pack [bits 1#2, bits 2#3, bits (BitVec.ofBool z), bits 0#2, mark b, bits b.reg, mark a, bits a.reg, bits d, bits 55#7]))
  | .afmin d a b z => some (.word (pack [bits 1#2, bits 3#3, bits (BitVec.ofBool z), bits 0#2, mark b, bits b.reg, mark a, bits a.reg, bits d, bits 55#7]))
  | .afmax d a b z => some (.word (pack [bits 1#2, bits 4#3, bits (BitVec.ofBool z), bits 0#2, mark b, bits b.reg, mark a, bits a.reg, bits d, bits 55#7]))
  | .radd a b z => some (.word (pack [bits 1#2, bits 5#3, bits (BitVec.ofBool z), bits 0#2, mark b, bits b.reg, mark a, bits a.reg, bits 0#5, bits 55#7]))
  | .aaddTz d a b k => some (.word (pack [bits 2#2, bits k, mark b, bits b.reg, mark a, bits a.reg, bits d, bits 55#7]))
  | .raddTz a b k => some (.word (pack [bits 3#2, bits k, mark b, bits b.reg, mark a, bits a.reg, bits 0#5, bits 55#7]))
  | .ulmAtomic _ => none
  | .houseAtomic _ => none
  | .atomicReply _ => none
  | .send d a k => some (.word (pack [bits 0#3, bits 0#3, bits k, mark a, bits a.reg, bits d, bits 59#7]))
  | .sendL d b k a n r => some (.long (pack [bits 2#5, bits k, bits (BitVec.ofBool r), mark a, bits a.reg, bits d, bits 127#7]) (pack [bits n, mark b, bits b.reg, bits 0#11, bits 123#7]))
  | .bind d a i => some (.word (pack [bits 1#3, bits i, mark a, bits a.reg, bits d, bits 59#7]))
  | .rebind d a i => some (.word (pack [bits 2#3, bits i, mark a, bits a.reg, bits d, bits 59#7]))
  | .unbind a => some (.word (pack [bits 3#3, bits 0#11, mark a, bits a.reg, bits 0#5, bits 59#7]))
  | .spawn d a b => some (.word (pack [bits 4#3, bits 0#4, bits 0#1, mark b, bits b.reg, mark a, bits a.reg, bits d, bits 59#7]))
  | .launch d a b => some (.word (pack [bits 4#3, bits 0#4, bits 1#1, mark b, bits b.reg, mark a, bits a.reg, bits d, bits 59#7]))
  | .join a => some (.word (pack [bits 0#5, bits 0#3, bits 0#6, mark a, bits a.reg, bits 0#5, bits 63#7]))
  | .leave a => some (.word (pack [bits 0#5, bits 1#3, bits 0#6, mark a, bits a.reg, bits 0#5, bits 63#7]))
  | .barw a => some (.word (pack [bits 0#5, bits 2#3, bits 0#6, mark a, bits a.reg, bits 0#5, bits 63#7]))
  | .bara a => some (.word (pack [bits 0#5, bits 3#3, bits 0#6, mark a, bits a.reg, bits 0#5, bits 63#7]))
  | .bard a => some (.word (pack [bits 0#5, bits 4#3, bits 0#6, mark a, bits a.reg, bits 0#5, bits 63#7]))
  | .barq d a => some (.word (pack [bits 0#5, bits 5#3, bits 0#6, mark a, bits a.reg, bits d, bits 63#7]))
  | .quiesce => some (.word (pack [bits 0#5, bits 6#3, bits 0#17, bits 63#7]))
  | .groupRequest _ => none
  | .groupAnswer _ => none
  | .fadd d a b t r => some (.word (pack [bits 0#3, bits t, bits r, mark b, bits b.reg, mark a, bits a.reg, bits d, bits 67#7]))
  | .fsub d a b t r => some (.word (pack [bits 1#3, bits t, bits r, mark b, bits b.reg, mark a, bits a.reg, bits d, bits 67#7]))
  | .fmul d a b t r => some (.word (pack [bits 2#3, bits t, bits r, mark b, bits b.reg, mark a, bits a.reg, bits d, bits 67#7]))
  | .fdiv d a b t r => some (.word (pack [bits 3#3, bits t, bits r, mark b, bits b.reg, mark a, bits a.reg, bits d, bits 67#7]))
  | .fsqrt d a t r => some (.word (pack [bits 4#3, bits t, bits r, bits 0#6, mark a, bits a.reg, bits d, bits 67#7]))
  | .fma d a b t r => some (.word (pack [bits 5#3, bits t, bits r, mark b, bits b.reg, mark a, bits a.reg, bits d, bits 67#7]))
  | .fnma d a b t r => some (.word (pack [bits 6#3, bits t, bits r, mark b, bits b.reg, mark a, bits a.reg, bits d, bits 67#7]))
  | .fmin d a b t => some (.word (pack [bits 7#3, bits t, bits 0#3, mark b, bits b.reg, mark a, bits a.reg, bits d, bits 67#7]))
  | .fmax d a b t => some (.word (pack [bits 7#3, bits t, bits 1#3, mark b, bits b.reg, mark a, bits a.reg, bits d, bits 67#7]))
  | .fcmp d a b t => some (.word (pack [bits 7#3, bits t, bits 2#3, mark b, bits b.reg, mark a, bits a.reg, bits d, bits 67#7]))
  | .fclass d a t => some (.word (pack [bits 7#3, bits t, bits 3#3, bits 0#6, mark a, bits a.reg, bits d, bits 67#7]))
  | .fmvxJ d a b t => some (.word (pack [bits 7#3, bits t, bits 4#3, mark b, bits b.reg, mark a, bits a.reg, bits d, bits 67#7]))
  | .fmvxN d a b t => some (.word (pack [bits 7#3, bits t, bits 5#3, mark b, bits b.reg, mark a, bits a.reg, bits d, bits 67#7]))
  | .fmvxX d a b t => some (.word (pack [bits 7#3, bits t, bits 6#3, mark b, bits b.reg, mark a, bits a.reg, bits d, bits 67#7]))
  | .fcvt d a p q r => some (.word (pack [bits 0#2, bits p, bits q, bits 0#3, bits r, mark a, bits a.reg, bits d, bits 71#7]))
  | .fcvtInt d a p q r => some (.word (pack [bits 1#2, bits p, bits q, bits 0#3, bits r, mark a, bits a.reg, bits d, bits 71#7]))
  | .fcvtf d a p q r => some (.word (pack [bits 2#2, bits p, bits q, bits 0#3, bits r, mark a, bits a.reg, bits d, bits 71#7]))
  | .vadd d a b w m e => some (.word (pack [bits (BitVec.ofBool w), bits 0#2, bits 0#5, bits m, bits b, bits a, bits d, bits e, bits 75#7]))
  | .vsub d a b w m e => some (.word (pack [bits (BitVec.ofBool w), bits 0#2, bits 1#5, bits m, bits b, bits a, bits d, bits e, bits 75#7]))
  | .vmul d a b w m e => some (.word (pack [bits (BitVec.ofBool w), bits 0#2, bits 2#5, bits m, bits b, bits a, bits d, bits e, bits 75#7]))
  | .vmulh d a b w m e => some (.word (pack [bits (BitVec.ofBool w), bits 0#2, bits 3#5, bits m, bits b, bits a, bits d, bits e, bits 75#7]))
  | .vmin d a b w m e => some (.word (pack [bits (BitVec.ofBool w), bits 0#2, bits 4#5, bits m, bits b, bits a, bits d, bits e, bits 75#7]))
  | .vmax d a b w m e => some (.word (pack [bits (BitVec.ofBool w), bits 0#2, bits 5#5, bits m, bits b, bits a, bits d, bits e, bits 75#7]))
  | .vminu d a b w m e => some (.word (pack [bits (BitVec.ofBool w), bits 0#2, bits 6#5, bits m, bits b, bits a, bits d, bits e, bits 75#7]))
  | .vmaxu d a b w m e => some (.word (pack [bits (BitVec.ofBool w), bits 0#2, bits 7#5, bits m, bits b, bits a, bits d, bits e, bits 75#7]))
  | .vand d a b w m e => some (.word (pack [bits (BitVec.ofBool w), bits 0#2, bits 8#5, bits m, bits b, bits a, bits d, bits e, bits 75#7]))
  | .vor d a b w m e => some (.word (pack [bits (BitVec.ofBool w), bits 0#2, bits 9#5, bits m, bits b, bits a, bits d, bits e, bits 75#7]))
  | .vxor d a b w m e => some (.word (pack [bits (BitVec.ofBool w), bits 0#2, bits 10#5, bits m, bits b, bits a, bits d, bits e, bits 75#7]))
  | .vshl d a b w m e => some (.word (pack [bits (BitVec.ofBool w), bits 0#2, bits 11#5, bits m, bits b, bits a, bits d, bits e, bits 75#7]))
  | .vshr d a b w m e => some (.word (pack [bits (BitVec.ofBool w), bits 0#2, bits 12#5, bits m, bits b, bits a, bits d, bits e, bits 75#7]))
  | .vsra d a b w m e => some (.word (pack [bits (BitVec.ofBool w), bits 0#2, bits 13#5, bits m, bits b, bits a, bits d, bits e, bits 75#7]))
  | .vfshl d a b w m e => some (.word (pack [bits (BitVec.ofBool w), bits 0#2, bits 14#5, bits m, bits b, bits a, bits d, bits e, bits 75#7]))
  | .vfshr d a b w m e => some (.word (pack [bits (BitVec.ofBool w), bits 0#2, bits 15#5, bits m, bits b, bits a, bits d, bits e, bits 75#7]))
  | .vclz d a w m e => some (.word (pack [bits (BitVec.ofBool w), bits 0#2, bits 16#5, bits m, bits 0#4, bits a, bits d, bits e, bits 75#7]))
  | .vpopc d a w m e => some (.word (pack [bits (BitVec.ofBool w), bits 0#2, bits 17#5, bits m, bits 0#4, bits a, bits d, bits e, bits 75#7]))
  | .vabs d a w m e => some (.word (pack [bits (BitVec.ofBool w), bits 0#2, bits 18#5, bits m, bits 0#4, bits a, bits d, bits e, bits 75#7]))
  | .vsadd d a b w m e => some (.word (pack [bits (BitVec.ofBool w), bits 0#2, bits 19#5, bits m, bits b, bits a, bits d, bits e, bits 75#7]))
  | .vssub d a b w m e => some (.word (pack [bits (BitVec.ofBool w), bits 0#2, bits 20#5, bits m, bits b, bits a, bits d, bits e, bits 75#7]))
  | .vfadd d a b w r m e => some (.word (pack [bits (BitVec.ofBool w), bits 0#4, bits r, bits m, bits b, bits a, bits d, bits e, bits 79#7]))
  | .vfsub d a b w r m e => some (.word (pack [bits (BitVec.ofBool w), bits 1#4, bits r, bits m, bits b, bits a, bits d, bits e, bits 79#7]))
  | .vfmul d a b w r m e => some (.word (pack [bits (BitVec.ofBool w), bits 2#4, bits r, bits m, bits b, bits a, bits d, bits e, bits 79#7]))
  | .vfma d a b w r m e => some (.word (pack [bits (BitVec.ofBool w), bits 3#4, bits r, bits m, bits b, bits a, bits d, bits e, bits 79#7]))
  | .vfmin d a b w m e => some (.word (pack [bits (BitVec.ofBool w), bits 4#4, bits 0#3, bits m, bits b, bits a, bits d, bits e, bits 79#7]))
  | .vfmax d a b w m e => some (.word (pack [bits (BitVec.ofBool w), bits 5#4, bits 0#3, bits m, bits b, bits a, bits d, bits e, bits 79#7]))
  | .vfexpn d a w r m e => some (.word (pack [bits (BitVec.ofBool w), bits 6#4, bits r, bits m, bits 0#4, bits a, bits d, bits e, bits 79#7]))
  | .vfrcp d a w r m e => some (.word (pack [bits (BitVec.ofBool w), bits 7#4, bits r, bits m, bits 0#4, bits a, bits d, bits e, bits 79#7]))
  | .vfcvt d a s w r m e => some (.word (pack [bits (BitVec.ofBool w), bits 8#4, bits r, bits m, bits s, bits a, bits d, bits e, bits 79#7]))
  | .vfcvtFp8 d a s w r m e => some (.word (pack [bits (BitVec.ofBool w), bits 9#4, bits r, bits m, bits s, bits a, bits d, bits e, bits 79#7]))
  | .vfcvtInt d a s w r m e => some (.word (pack [bits (BitVec.ofBool w), bits 10#4, bits r, bits m, bits s, bits a, bits d, bits e, bits 79#7]))
  | .vfcvtUint d a s w r m e => some (.word (pack [bits (BitVec.ofBool w), bits 11#4, bits r, bits m, bits s, bits a, bits d, bits e, bits 79#7]))
  | .vld d a e m k => some (.word (pack [bits 0#1, bits 0#3, bits e, bits m, bits k, mark a, bits a.reg, bits 0#4, bits d, bits 83#7]))
  | .vst a s w e m k => some (.word (pack [bits (BitVec.ofBool w), bits 1#3, bits e, bits m, bits k, mark a, bits a.reg, bits s, bits 0#4, bits 83#7]))
  | .vldu d a m k => some (.word (pack [bits 0#1, bits 2#3, bits 0#2, bits m, bits k, mark a, bits a.reg, bits 0#4, bits d, bits 83#7]))
  | .vstu a s w m k => some (.word (pack [bits (BitVec.ofBool w), bits 3#3, bits 0#2, bits m, bits k, mark a, bits a.reg, bits s, bits 0#4, bits 83#7]))
  | .vgath d a s w e k => some (.word (pack [bits (BitVec.ofBool w), bits 4#3, bits e, bits 0#2, bits k, mark a, bits a.reg, bits s, bits d, bits 83#7]))
  | .vscat d a s w e k => some (.word (pack [bits (BitVec.ofBool w), bits 5#3, bits e, bits 0#2, bits k, mark a, bits a.reg, bits s, bits d, bits 83#7]))
  | .vbcast d a e i => some (.word (pack [bits 0#1, bits 6#3, bits e, bits 0#5, mark a, bits a.reg, bits i, bits d, bits 83#7]))
  | .vperm d a b w m e => some (.word (pack [bits (BitVec.ofBool w), bits 0#4, bits 0#3, bits m, bits b, bits a, bits d, bits e, bits 87#7]))
  | .vredadd d a w m e => some (.word (pack [bits (BitVec.ofBool w), bits 0#4, bits 1#3, bits m, bits 0#4, bits a, bits d, bits e, bits 87#7]))
  | .vredmax d a w m e => some (.word (pack [bits (BitVec.ofBool w), bits 0#4, bits 2#3, bits m, bits 0#4, bits a, bits d, bits e, bits 87#7]))
  | .vredmin d a w m e => some (.word (pack [bits (BitVec.ofBool w), bits 0#4, bits 3#3, bits m, bits 0#4, bits a, bits d, bits e, bits 87#7]))
  | .vgmax d g a w m e => some (.word (pack [bits (BitVec.ofBool w), bits 0#4, bits 4#3, bits m, bits 0#2, bits g, bits a, bits d, bits e, bits 87#7]))
  | .vgmin d g a w m e => some (.word (pack [bits (BitVec.ofBool w), bits 0#4, bits 5#3, bits m, bits 0#2, bits g, bits a, bits d, bits e, bits 87#7]))
  | .vscan d a w m e => some (.word (pack [bits (BitVec.ofBool w), bits 0#4, bits 6#3, bits m, bits 0#4, bits a, bits d, bits e, bits 87#7]))
  | .vsel d a b w m e => some (.word (pack [bits (BitVec.ofBool w), bits 0#4, bits 7#3, bits m, bits b, bits a, bits d, bits e, bits 87#7]))
  | .vcmp d c a b w m e => some (.word (pack [bits (BitVec.ofBool w), bits 1#4, bits c, bits m, bits b, bits a, bits 0#1, bits d, bits e, bits 87#7]))
  | .mand d a b => some (.word (pack [bits 0#1, bits 2#4, bits 0#1, bits 0#2, bits 0#4, bits b, bits 0#1, bits a, bits 0#1, bits d, bits 0#2, bits 87#7]))
  | .mor d a b => some (.word (pack [bits 0#1, bits 2#4, bits 0#1, bits 1#2, bits 0#4, bits b, bits 0#1, bits a, bits 0#1, bits d, bits 0#2, bits 87#7]))
  | .mxor d a b => some (.word (pack [bits 0#1, bits 2#4, bits 0#1, bits 2#2, bits 0#4, bits b, bits 0#1, bits a, bits 0#1, bits d, bits 0#2, bits 87#7]))
  | .mnot d a => some (.word (pack [bits 0#1, bits 2#4, bits 0#1, bits 3#2, bits 0#8, bits a, bits 0#1, bits d, bits 0#2, bits 87#7]))
  | .vslide d a s w e k => some (.word (pack [bits (BitVec.ofBool w), bits 8#4, bits 0#1, bits e, bits k, mark a, bits a.reg, bits s, bits d, bits 87#7]))
  | .vmovx d l s w e => some (.word (pack [bits (BitVec.ofBool w), bits 8#4, bits 1#1, bits e, bits 0#4, bits d, bits s, bits l, bits 87#7]))
  | .vins d l a e => some (.word (pack [bits 0#1, bits 9#4, bits 0#1, bits e, bits 0#3, mark a, bits a.reg, bits l, bits d, bits 87#7]))
  | .mpop d s => some (.word (pack [bits 0#1, bits 9#4, bits 1#1, bits 0#6, bits d, bits s, bits 0#4, bits 87#7]))
  | .mfirst d s => some (.word (pack [bits 0#1, bits 10#4, bits 0#1, bits 0#6, bits d, bits s, bits 0#4, bits 87#7]))
  | .mgen d a => some (.word (pack [bits 0#1, bits 10#4, bits 1#1, bits 0#5, mark a, bits a.reg, bits 0#4, bits d, bits 87#7]))
  | .tdecl f a t u => some (.word (pack [bits 0#3, bits 0#3, bits (BitVec.ofBool t), bits u, bits 0#1, mark a, bits a.reg, bits 0#1, bits f, bits 91#7]))
  | .tfree t u => some (.word (pack [bits 0#3, bits 1#3, bits (BitVec.ofBool t), bits u, bits 0#12, bits 91#7]))
  | .tgive a t u => some (.word (pack [bits 0#3, bits 2#3, bits (BitVec.ofBool t), bits u, bits 0#1, mark a, bits a.reg, bits 0#5, bits 91#7]))
  | .ttake t u => some (.word (pack [bits 0#3, bits 3#3, bits (BitVec.ofBool t), bits u, bits 0#12, bits 91#7]))
  | .twait t u => some (.word (pack [bits 0#3, bits 4#3, bits (BitVec.ofBool t), bits u, bits 0#12, bits 91#7]))
  | .tstat d u => some (.word (pack [bits 0#3, bits 5#3, bits 0#1, bits u, bits 0#7, bits d, bits 91#7]))
  | .tfmt a => some (.word (pack [bits 0#3, bits 6#3, bits 0#8, mark a, bits a.reg, bits 0#5, bits 91#7]))
  | .ttrl t u o => some (.word (pack [bits 0#3, bits 7#3, bits (BitVec.ofBool t), bits u, bits 0#11, bits (BitVec.ofBool o), bits 91#7]))
  | .tsub a => some (.word (pack [bits 8#4, bits 0#4, bits 0#6, mark a, bits a.reg, bits 0#5, bits 95#7]))
  | .tqry d a => some (.word (pack [bits 8#4, bits 1#4, bits 0#6, mark a, bits a.reg, bits d, bits 95#7]))
  | .xcopy a => some (.word (pack [bits 8#4, bits 2#4, bits 0#6, mark a, bits a.reg, bits 0#5, bits 95#7]))
  | .skbc a b w => some (.word (pack [bits 8#4, bits 3#4, bits (BitVec.ofBool w), bits 0#1, bits b, mark a, bits a.reg, bits 0#5, bits 95#7]))
  | .xstrm a b => some (.word (pack [bits 8#4, bits 4#4, mark b, bits b.reg, mark a, bits a.reg, bits 0#5, bits 95#7]))
  | .sbpld a b => some (.word (pack [bits 8#4, bits 8#4, mark b, bits b.reg, mark a, bits a.reg, bits 0#5, bits 95#7]))
  | .sbprd d a => some (.word (pack [bits 8#4, bits 9#4, bits 0#6, mark a, bits a.reg, bits d, bits 95#7]))
  | .segmentPlay _ _ => none
  | .segmentReturn _ => none
  | .taskStart _ _ => none
  | .promotionBlock _ _ => none
  | .taskComplete _ _ => none
  | .taskDrain _ _ => none
  | .copyCommandStart _ => none
  | .copyDestinationFill _ _ _ => none
  | .copyCommandComplete _ _ => none
  | .raynew d a => some (.word (pack [bits 0#4, bits 0#4, bits 0#6, mark a, bits a.reg, bits d, bits 99#7]))
  | .raygo a => some (.word (pack [bits 0#4, bits 1#4, bits 0#6, mark a, bits a.reg, bits 0#5, bits 99#7]))
  | .spsrc a b => some (.word (pack [bits 0#4, bits 2#4, mark b, bits b.reg, mark a, bits a.reg, bits 0#5, bits 99#7]))
  | .spins a b => some (.word (pack [bits 0#4, bits 3#4, mark b, bits b.reg, mark a, bits a.reg, bits 0#5, bits 99#7]))
  | .spsettle a b => some (.word (pack [bits 0#4, bits 4#4, mark b, bits b.reg, mark a, bits a.reg, bits 0#5, bits 99#7]))
  | .spdone a => some (.word (pack [bits 0#4, bits 5#4, bits 0#6, mark a, bits a.reg, bits 0#5, bits 99#7]))
  | .sprd d a b => some (.word (pack [bits 0#4, bits 6#4, mark b, bits b.reg, mark a, bits a.reg, bits d, bits 99#7]))
  | .raystop a => some (.word (pack [bits 0#4, bits 7#4, bits 0#6, mark a, bits a.reg, bits 0#5, bits 99#7]))
  | .rayfree a => some (.word (pack [bits 0#4, bits 8#4, bits 0#6, mark a, bits a.reg, bits 0#5, bits 99#7]))
  | .rayUnitReply _ => none
  | .walkerStep _ _ => none
  | .walkerFetch _ _ => none
  | .travAbort _ _ => none
  | .travReset _ _ => none
  | .travSdfWrite _ _ => none
  | .vbmin d a b => some (.word (pack [bits 0#6, bits 0#2, mark b, bits b.reg, mark a, bits a.reg, bits d, bits 103#7]))
  | .wgemit a b => some (.word (pack [bits 0#6, bits 1#2, mark b, bits b.reg, mark a, bits a.reg, bits 0#5, bits 103#7]))
  | .wgfin a => some (.word (pack [bits 0#6, bits 2#2, bits 0#6, mark a, bits a.reg, bits 0#5, bits 103#7]))
  | .rasterRecord _ _ _ => none
  | .rasterQueueComplete _ _ _ => none
  | .csrr d n => some (.word (pack [bits 0#3, bits n, bits 0#6, bits d, bits 107#7]))
  | .csrw a n => some (.word (pack [bits 1#3, bits n, mark a, bits a.reg, bits 0#5, bits 107#7]))
  | .csrx d a n => some (.word (pack [bits 2#3, bits n, mark a, bits a.reg, bits d, bits 107#7]))
  | .hcall n => some (.word (pack [bits 3#3, bits n, bits 0#11, bits 107#7]))
  | .eret => some (.word (pack [bits 4#3, bits 0#2, bits 0#3, bits 0#17, bits 107#7]))
  | .wfi => some (.word (pack [bits 4#3, bits 0#2, bits 1#3, bits 0#17, bits 107#7]))
  | .tlbw a b => some (.word (pack [bits 4#3, bits 0#2, bits 2#3, mark b, bits b.reg, mark a, bits a.reg, bits 0#5, bits 107#7]))
  | .tlbi a => some (.word (pack [bits 4#3, bits 0#2, bits 3#3, bits 0#6, mark a, bits a.reg, bits 0#5, bits 107#7]))
  | .tlbp d a => some (.word (pack [bits 4#3, bits 0#2, bits 4#3, bits 0#6, mark a, bits a.reg, bits d, bits 107#7]))
  | .ctxsv a => some (.word (pack [bits 4#3, bits 0#2, bits 5#3, bits 0#6, mark a, bits a.reg, bits 0#5, bits 107#7]))
  | .ctxld a => some (.word (pack [bits 4#3, bits 0#2, bits 6#3, bits 0#6, mark a, bits a.reg, bits 0#5, bits 107#7]))
  | .snap d => some (.word (pack [bits 4#3, bits 0#2, bits 7#3, bits 0#12, bits d, bits 107#7]))
  | .curtainTimeout _ => none
  | .curtainFall => none
  | .cMov a b => some (.half (pack [bits 0#5, bits b, bits a, bits 2#5]))
  | .cAdd a b => some (.half (pack [bits 0#5, bits b, bits a, bits 4#5]))
  | .cSub a b => some (.half (pack [bits 0#5, bits b, bits a, bits 6#5]))
  | .cAddi a i => some (.half (pack [bits i, bits a, bits 8#5]))
  | .cLdi a i => some (.half (pack [bits i, bits a, bits 10#5]))
  | .cLw a b i => some (.half (pack [bits i, bits b, bits a, bits 12#5]))
  | .cSw a b i => some (.half (pack [bits i, bits b, bits a, bits 14#5]))
  | .cBeqz a i => some (.half (pack [bits i, bits a, bits 16#5]))
  | .cBnez a i => some (.half (pack [bits i, bits a, bits 18#5]))
  | .cJ i => some (.half (pack [bits i, bits 20#5]))
  | .cCwait c i => some (.half (pack [bits i, bits c, bits 22#5]))
  | .cNop => some (.half (pack [bits 0#11, bits 24#5]))
  | .cDone => some (.half (pack [bits 1#11, bits 24#5]))
  | .cRet => some (.half (pack [bits 2#11, bits 24#5]))
  | .messageArrival _ => none
  | .messageRetry _ => none
  | .unboundTimeout _ => none
  | .messageDequeue _ => none
  | .startMessage _ => none
  | .spawnRequest _ => none
  | .spawnAnswer _ => none
  | .counterBump _ => none
  | .handlerBudget _ => none
  | .blockSwap _ => none
  | .quantumSwap _ => none
  | .slotSwapComplete _ => none
  | .divideComplete _ => none
  | .mapAccess _ => none
  | .loadReply _ => none
  | .dqEntryStart _ => none
  | .dqEntryComplete _ _ => none
  | .dqAccessFault _ _ => none
  | .dqFaultRecordWrite _ => none
  | .dqFaultClear _ => none
  | .deferredTrap _ _ => none
  | .watchdog _ => none
  | .scopeMiss _ => none
  | .translationTimeout _ => none
  | .faultClimb _ => none
  | .pagerWake _ _ _ _ => none
  | .routerWake _ => none
  | .agentWake _ => none
  | .queueRecordWrite _ => none
  | .pgqWrite _ => none
  | .hostLaunchRecord _ => none
  | .headerRead _ => none
  | .kernelPlacement _ => none
  | .kernelRetire _ => none
  | .gateAdmit _ => none
  | .rampEnd _ => none
  | .didtLimitWrite _ _ => none
  | .engRampWrite _ _ => none
  | .quiescenceDetected _ => none
  | .quiesceProbe _ => none
  | .preemptCommand _ => none
  | .preemptSave _ => none
  | .restoreCommand _ => none
  | .loopDepthWrite _ _ _ => none
  | .bankFmtWrite _ _ _ => none
  | .registerWrite _ _ => none
  | .dramRead _ _ _ => none
  | .dramWrite _ _ _ _ _ => none
  | .periodicRefresh _ _ => none
  | .rfmLevelWrite _ _ => none
  | .rfmCreditWrite _ _ => none
  | .compressionResetNotice _ => none
  | .flitReplay _ => none
  | .linkRetrain _ => none
  | .linkRetrainEnd _ => none
  | .peerRequest _ => none
  | .coldStart => none
  | .warmStart => none
  | .liveUpdate => none
  | .telemetryRecord _ => none
  | .illegalInstruction => none
  | .wfiEndWithoutEvent _ _ => none
  | .attestationQuote _ => none
  | .orderlyShutdown => none
  | .partitionReset _ => none

/-- What the decoder reads from the words of one instruction that starts at an aligned word; a halfword stands low, with
C_NOP above it as brasm pairs it (08 R137). -/
noncomputable def Code.decode (c : Code) : Decoded :=
  match c with
  | .half h => decodeAt (pack [bits 0x0018#16, bits h]) 0#32 false
  | .word w => decodeAt w 0#32 false
  | .long w w2 => decodeAt w w2 false


end Sys2Proof
end

