-- ==== Sys2Proof/Machine/Causes.lean ====
section
/-!
DEFINITION. Causes.lean: the 7-bit cause codes of spec/24 (R338, R343 to R350).
-/

namespace Sys2Proof.Machine.Cause

def illegal : BitVec 7 := 0x00#7
def branchInto : BitVec 7 := 0x01#7
def loopOverflow : BitVec 7 := 0x02#7
def loopRange : BitVec 7 := 0x03#7
def loopEnd : BitVec 7 := 0x04#7
def software : BitVec 7 := 0x05#7
def supervisorCall : BitVec 7 := 0x06#7
def privileged : BitVec 7 := 0x07#7
def csrPrivilege : BitVec 7 := 0x08#7
def emptyOperand : BitVec 7 := 0x10#7
def untagged : BitVec 7 := 0x11#7
def capKind : BitVec 7 := 0x12#7
def capPermission : BitVec 7 := 0x13#7
def capBounds : BitVec 7 := 0x14#7
def meshRange : BitVec 7 := 0x15#7
def streamDirection : BitVec 7 := 0x16#7
def streamEnd : BitVec 7 := 0x17#7
def streamBind : BitVec 7 := 0x18#7
def pageFault : BitVec 7 := 0x20#7
def protection : BitVec 7 := 0x21#7
def translationFormat : BitVec 7 := 0x22#7
def tierUnavailable : BitVec 7 := 0x23#7
def misaligned : BitVec 7 := 0x24#7
def misalignedMap : BitVec 7 := 0x25#7
def mapAddress : BitVec 7 := 0x26#7
def mapPrivilege : BitVec 7 := 0x27#7
def partitionBoundary : BitVec 7 := 0x28#7
def wings : BitVec 7 := 0x29#7
def dramOperand : BitVec 7 := 0x2A#7
def dramTransfer : BitVec 7 := 0x2B#7
def tlbOperand : BitVec 7 := 0x2C#7
def translationTimeout : BitVec 7 := 0x2D#7
def unboundTimeout : BitVec 7 := 0x30#7
def unboundOverflow : BitVec 7 := 0x31#7
def barrierOver : BitVec 7 := 0x32#7
def handlerBudget : BitVec 7 := 0x33#7
def blockingInHandler : BitVec 7 := 0x34#7
def groupFull : BitVec 7 := 0x35#7
def messageOperand : BitVec 7 := 0x36#7
def classBound : BitVec 7 := 0x37#7
def contextOperand : BitVec 7 := 0x38#7
def contextImage : BitVec 7 := 0x39#7
def tileNotReady : BitVec 7 := 0x40#7
def tileOwner : BitVec 7 := 0x41#7
def trailerChecksum : BitVec 7 := 0x42#7
def streamDesync : BitVec 7 := 0x43#7
def dimension : BitVec 7 := 0x44#7
def sbpTable : BitVec 7 := 0x45#7
def tileFormat : BitVec 7 := 0x46#7
def tileSize : BitVec 7 := 0x47#7
def engineOperand : BitVec 7 := 0x48#7
def taskRecord : BitVec 7 := 0x49#7
def predecessorFault : BitVec 7 := 0x4A#7
def notScaleKeeper : BitVec 7 := 0x4B#7
def rayOperand : BitVec 7 := 0x50#7
def rayHandle : BitVec 7 := 0x51#7
def rayState : BitVec 7 := 0x52#7
def raySource : BitVec 7 := 0x53#7
def rayAnswer : BitVec 7 := 0x54#7
def rayOwner : BitVec 7 := 0x55#7
def rayDescriptor : BitVec 7 := 0x56#7
def sceneRecord : BitVec 7 := 0x57#7
def rasterRecord : BitVec 7 := 0x58#7
def workGraph : BitVec 7 := 0x59#7
def fpInvalid : BitVec 7 := 0x60#7
def fpDivZero : BitVec 7 := 0x61#7
def fpOverflow : BitVec 7 := 0x62#7
def fpUnderflow : BitVec 7 := 0x63#7
def fpInexact : BitVec 7 := 0x64#7
def uncorrectable : BitVec 7 := 0x70#7
def softRegister : BitVec 7 := 0x71#7
def softUlm : BitVec 7 := 0x72#7
def linkDown : BitVec 7 := 0x73#7
def watchdog : BitVec 7 := 0x74#7
def curtain : BitVec 7 := 0x75#7
def doubleTrap : BitVec 7 := 0x76#7
def saveIntegrity : BitVec 7 := 0x77#7
def startFailure : BitVec 7 := 0x78#7

/-- The class of a cause: bits [6:4] (24 R338). -/
def cls (c : BitVec 7) : BitVec 3 := c.extractLsb' 4 3

end Sys2Proof.Machine.Cause
end

