-- ==== Sys2Proof/Machine/Assoc.lean ====
section
/-!
DEFINITION. Assoc.lean: finite maps from natural-number keys as plain lists in one canonical form: keys strictly rising,
and no entry that equals the map's default. Two maps that read alike are then equal data.
-/

namespace Sys2Proof.Machine

/-- A finite map as a list of key and value pairs. -/
abbrev Assoc (α : Type) := List (Nat × α)

/-- The value at a key, or the default where the key is not listed. -/
def Assoc.get {α : Type} (d : α) : Assoc α → Nat → α
  | [], _ => d
  | (k, v) :: m, i => if k = i then v else Assoc.get d m i

/-- The value at a key, if the key is listed. -/
def Assoc.find {α : Type} : Assoc α → Nat → Option α
  | [], _ => none
  | (k, v) :: m, i => if k = i then some v else Assoc.find m i

/-- The map without a key. -/
def Assoc.del {α : Type} (m : Assoc α) (i : Nat) : Assoc α := m.filter fun e => e.1 != i

/-- Insert before the first larger key. -/
def Assoc.ins {α : Type} (i : Nat) (v : α) : Assoc α → Assoc α
  | [] => [(i, v)]
  | (k, w) :: m => if i < k then (i, v) :: (k, w) :: m else (k, w) :: Assoc.ins i v m

/-- The map with a key set, whatever the value. -/
def Assoc.set {α : Type} (m : Assoc α) (i : Nat) (v : α) : Assoc α := Assoc.ins i v (m.del i)

/-- The map with a key set; the default is not listed. -/
def Assoc.put {α : Type} [DecidableEq α] (d : α) (m : Assoc α) (i : Nat) (v : α) : Assoc α :=
  if v = d then m.del i else m.set i v

/-- The canonical form: keys strictly rising, no value the default. -/
def Assoc.wf {α : Type} [DecidableEq α] (d : α) : Assoc α → Bool
  | [] => true
  | (k, v) :: m => v != d && (m.all fun e => decide (k < e.1)) && Assoc.wf d m

end Sys2Proof.Machine
end

