-- ==== Sys2Proof/Machine/Parts.lean ====
section
/-!
DEFINITION. Parts.lean: the pieces the machine's state is made of, all plain data. INVENTORY.md lists each with the rule that
names it. Cores are named by their coordinate pair (01 R10), stages by die * 40 + stage row * 8 + stage column (R10, R11).
-/

namespace Sys2Proof.Machine

/-! ## One context (03 R28, R29; 23 R327) -/

/-- The mode a task runs in (23 R320); code 11 is never held. -/
inductive Mode where
  | user
  | supervisor
  | firmware
deriving DecidableEq, Repr

/-- An x register (04 R44). -/
structure XReg where
  val : Quad
  tag : Bool
  full : Bool
deriving DecidableEq, Repr

/-- A vector register (04 R55). -/
structure VReg where
  val : Vec
  full : Bool
deriving DecidableEq, Repr

/-- One entry of the loop stack (04 R58): bits [17:1] of start and end, and the count. -/
structure LoopEntry where
  start : BitVec 17
  stop : BitVec 17
  count : BitVec 32
deriving DecidableEq, Repr

/-- The loop stack (04 R58): entry 0 is the first pushed, and the top one in use is entry depth - 1. -/
structure LoopStack where
  depth : BitVec 2
  e0 : LoopEntry
  e1 : LoopEntry
deriving DecidableEq, Repr

/-- A set of trap registers (23 R322, R323): `trap.*` of a context, or `fw.*` of a core. `stat` holds the eight bits [7:0]. -/
structure TrapRegs where
  cause : BitVec 7
  pc : Ulm
  addr : Word
  stat : BitVec 8
deriving DecidableEq, Repr

/-- A stream generator (04 R54, 10 R183 to R186). `fetched` are the elements a reading generator holds, oldest first.
`pending` are request numbers: of an appending generator, the elements whose value has not arrived or whose store is not
performed; of a reading one, the stores it begins to fetch after. -/
structure Gen where
  bound : Bool
  append : Bool
  esize : BitVec 2
  reg : BitVec 2
  cap : Quad
  tag : Bool
  pos : BitVec 32
  fetched : List Nat
  pending : List Nat
deriving DecidableEq, Repr

/-- What a context's image holds (23 R327), and beside it `windowed`: the registers (bits 0 to 31 the x registers, 32 to 47
the vector registers) that a register window has written and no instruction has read since (07 R97). -/
structure Context where
  pc : Ulm
  x : Vector XReg 32
  v : Vector VReg 16
  m : Vector Word 8
  loops : LoopStack
  fpCtrl : BitVec 13
  fpFlags : BitVec 5
  inlinePc : Ulm
  inlineValid : Bool
  mode : Mode
  trap : TrapRegs
  gens : Vector Gen 4
  windowed : BitVec 48
deriving DecidableEq, Repr

/-- The state of a slot (03 R28). -/
inductive Status where
  | free
  | ready
  | blocked
deriving DecidableEq, Repr

/-- What a blocked context waits on (03 R28). `retry` is a wait whose instruction issues again; the others end by the
event that answers them. -/
inductive Wait where
  | retry                    -- the instruction is tried again: a register, tile, queue or unit
  | counter (c n : Nat)      -- CWAIT: until the value of counter c is at least n (10 R191)
  | answer (id : Nat)        -- the answer of a request (10 R204 to R206, 26 R367)
  | quiescence               -- QUIESCE (10 R208)
  | event                    -- WFI (23 R331)
  | miss (va : Nat)          -- a DRAM atomic whose translation TLBW is to bring (25 R355)
  | page (va : Nat)          -- one whose page fault climbs the fault tree: until the pager's wake (25 R363)
  | over                     -- the wait has ended while the slot was saved: its instruction completes at CTXLD (23 R333)
deriving DecidableEq, Repr

/-- The scope of a fence (07 R99). -/
inductive Scope where
  | core
  | stage
  | die
  | package
  | system
deriving DecidableEq, Repr

/-- The class of an event (07 R97). -/
inductive Cls where
  | r
  | w
  | q
  | m
  | a
deriving DecidableEq, Repr

/-- A fence in force (07 R101): the events it still waits for, by request number, and its set Q. -/
structure FenceRec where
  waits : List Nat
  q : BitVec 5
deriving DecidableEq, Repr

/-- A deferred cause (23 R324) with its address, and the cause that its record names beside it (24 R345). -/
structure Deferred where
  cause : BitVec 7
  addr : Word
  under : BitVec 7
deriving DecidableEq, Repr

/-- An uncorrectable soft error that an instruction's own read meets (24 R340). -/
inductive Soft where
  | register (n : BitVec 6)    -- [4:0] the register, [5] 1 for a vector register
  | ulm (off : Ulm)            -- a ULM byte, or the fetched word
deriving DecidableEq, Repr

/-- What the core keeps of a context beside its image (03 R28, R31; 23 R333; 07 R101, R112; 26 R372). -/
structure Slot where
  status : Status
  wait : Wait
  resident : Bool
  held : Bool
  saved : Bool                -- CTXSV has completed: the image is software's until CTXLD (23 R333)
  since : Nat                 -- the cycle the wait began
  residentAt : Nat            -- the cycle the slot became resident
  kernel : Option Nat
  deferred : List Deferred
  fences : List FenceRec
  storeScope : Option Scope
  replies : List (Nat × Nat)  -- the replies to SEND.L that are still to come (10 R201): the register, and the core they come from
  afenced : Bool              -- the task has executed AFENCE (07 R108)
  soft : Option Soft          -- a soft error met, whose trap waits until x29 has no pending producer (23 R325)
  epoch : Nat
deriving DecidableEq, Repr

/-- A context: its image and what the core keeps beside it. -/
structure Thread where
  img : Context
  slot : Slot
deriving DecidableEq, Repr

/-! ## Records in flight -/

/-- A position that a late value has reserved in an appending stream (04 R54): the generator, the map address of the element,
whether it is one of the own ULM, its size, how the value is sized and extended before its low bytes are taken (10 R177), the
publication entry of its store, the number that its store has, and what the store follows (07 R101 to R103). -/
structure Element where
  gen : Nat
  addr : Nat
  near : Bool
  size : Nat
  bytes : Nat
  signed : Bool
  quad : Bool
  pub : Option Nat
  id : Nat
  after : List Nat
deriving DecidableEq, Repr

/-- Where a value that arrives late is written (04 R51). -/
inductive Dest where
  | none
  | x (r : XName) (bytes : Nat) (signed : Bool) (quad : Bool)     -- an x register, sized as its load (10 R177)
  | v (r : VName) (group : Nat) (pieces : List (Nat × Nat × Nat)) -- (source byte, vector byte, length) pieces of a group
  | append (e : Element)
deriving DecidableEq, Repr

/-- The operation of an atomic (10 R195, 16 R303). -/
inductive AOp where
  | add | and | or | xor | min | max | minu | maxu | swap | cas | fadd | fmin | fmax | radd | vbmin
deriving DecidableEq, Repr

/-- Where an access to DRAM goes: the context and virtual address it names (07 R98), tier, peer port, physical address, and
the attributes of its page (06 R84). -/
structure DramAt where
  ctx : Nat
  va : Nat
  tier : Nat
  port : Nat
  phys : Nat
  gran : Nat
  order : Nat
  inter : Bool                 -- package-interleaved
  tol : Option (BitVec 4)      -- tolerant mode, and the format it names
  page : Nat                   -- the size of the page in bytes
deriving DecidableEq, Repr

/-- A value that a DRAM byte held before a write (07 R108): the byte's key, the value, the virtual addresses under which the
write, or a later one, is already seen, and of the write's task whether it has executed AFENCE since. -/
structure Alias where
  key : Nat
  old : Byte
  seen : List (Nat × Nat)      -- context and virtual address
  writer : Nat × Nat × Nat     -- core, context, epoch
  joined : Bool
deriving DecidableEq, Repr

/-- An atomic on its way to its home (10 R196). -/
structure Atomic where
  op : AOp
  bytes : Nat                 -- 4, 8 or 16
  value : Quad
  expect : Quad               -- ACAS only
  addr : Nat                  -- the map address, or the DRAM virtual address
  phys : Option DramAt        -- the DRAM location, for a DRAM atomic
  dst : Dest
  near : Bool                 -- named by a local offset (07 R102)
  trigger : BitVec 6          -- 0 for none (10 R199)
deriving DecidableEq, Repr

/-- A message (03 R25, R36, R38; 10 R200, R201). -/
structure Msg where
  cls : BitVec 8
  sender : BitVec 14
  words : List (BitVec 32)
  drop : Bool                 -- the drop mark of 15 R300
deriving DecidableEq, Repr

/-- What stands in an inbox: a message, or an atomic on the core's ULM (10 R196). -/
inductive InboxItem where
  | msg (m : Msg)
  | atomic (id : Nat)           -- the request in flight
deriving DecidableEq, Repr

/-- A group request (10 R206). -/
inductive GroupOp where
  | join | leave | barw | bara | bard | barq | ended
deriving DecidableEq, Repr

/-- The answer to a group request: accepted, a BARQ status, or a trap (03 R40, R41). -/
inductive GroupAns where
  | ok
  | status (v : Word)
  | over
  | full
deriving DecidableEq, Repr

/-- The agents that wait on translation (25 R351, R363). -/
inductive Agent where
  | entry (core index : Nat)                -- a DRAM queue entry
  | atomic (core ctx : Nat)                 -- a DRAM atomic or VBMIN held at issue
  | command (stage index : Nat)             -- an XCOPY command
  | segment (stage stream : Nat)            -- an XSTRM segment
  | walk (stage slot : Nat)                 -- a walker fetch
  | raster (die unit queue : Nat)           -- a raster queue
  | header (part entry : Nat)               -- the DFE's reads for a launch
  | completion (part : Nat) (id : Nat)      -- a completion write (26 R368)
  | save (part : Nat)                       -- the save area's writes and reads (23 R336)
deriving DecidableEq, Repr

/-- The TLBs of the device (25 R351). -/
inductive TlbId where
  | core (core : Nat)
  | copy (stage : Nat)
  | trav (stage : Nat)
  | raster (die unit : Nat)
deriving DecidableEq, Repr

/-- The 32-byte record of a posted cause (24 R342). -/
structure CauseRecord where
  cause : BitVec 7
  core : BitVec 14
  agent : BitVec 2
  unit : BitVec 11
  time : Word
  detail0 : Word
  detail1 : Word
deriving DecidableEq, Repr

/-- What a request in flight asks for, or brings. -/
inductive Body where
  | read (addr len : Nat) (tags : Bool) (dst : Dest)
  | write (addr : Nat) (bytes : List Byte) (tag : Bool) (pub : Option Nat) (fw : Bool)
  | patch (addr : Nat) (bytes : List (Option Byte)) (pub : Option Nat) (fw : Bool)  -- a vector piece with gaps (11 R226)
  | reply (dst : Dest) (bytes : List Byte) (tag : Bool)
  | divide (dst : Dest) (value : Word)
  | awaited (reg : Nat) (sender : Option Nat) (dst : Dest)  -- a window write that is to fill a reserved element (04 R51, R54)
  | atomic (a : Atomic)
  | atomicReply (dst : Dest) (value : Quad) (flags : BitVec 5) (failed : Option (Word × BitVec 7))
  | message (target : Nat) (m : Msg) (refused : Option Nat)  -- the cycle of its first refusal (03 R36)
  | bump (core counter n : Nat)
  | cadd (core counter : Nat) (step : BitVec 32)
  | group (op : GroupOp) (gid : BitVec 16) (dst : XName)
  | groupAnswer (gid : BitVec 16) (ans : GroupAns) (dst : XName)
  | spawn (target : Nat) (pc : Ulm) (args : List XReg) (mode : Mode) (kernel : Option Nat) (dst : Dest)
  | spawnAnswer (slot : Option Nat) (target : Nat) (pc : Ulm) (args : List XReg) (mode : Mode) (kernel : Option Nat) (dst : Dest)
  | start (core kernel index : Nat)
  | scopeMiss (addr : Nat) (bytes : List (Option Byte)) (tag : Bool) (pub : Nat) (fw : Bool)
  | post (part : Nat) (r : CauseRecord)
  | pagerPost (part : Nat) (r : CauseRecord) (stalled : Bool)  -- stalled by a failed write (28 R396)
  | fault (router port ctx page : Nat) (r : CauseRecord) (agent : Agent)
  | routerWake (router ctx page : Nat) (deny : Bool)
  | agentWake (agent : Agent) (ctx page : Nat) (deny : Bool)
  | segReturn (core tile : Nat) (counter : Option Nat) (faulted : Bool)
  | miss (tlb : TlbId) (ctx page va : Nat) (since : Nat)  -- until TLBW answers it (25 R355)
  | hostRecord (part queue : Nat) (bytes : List Byte)
  | completion (part : Nat) (addr : Nat) (value : Word) (suspended : Option Nat)
deriving DecidableEq, Repr

/-- What a request is aimed at, for the scopes of fences (07 R99, R193). -/
inductive Place where
  | core (pair : Nat)
  | stage (stage : Nat)
  | die (die : Nat)
  | package
  | system
deriving DecidableEq, Repr

/-- A request, message, access or value in flight (07 R97). `after` names the requests it must follow. -/
structure Req where
  id : Nat
  core : Nat
  ctx : Nat
  epoch : Nat
  cls : Option Cls
  place : Place
  after : List Nat
  body : Body
deriving DecidableEq, Repr

/-! ## One core -/

/-- A completion counter (04 R56). -/
structure Counter where
  trigger : BitVec 8
  value : BitVec 32
deriving DecidableEq, Repr

/-- A tile table entry (04 R57), in the layout's fields. -/
structure Tile where
  fault : Bool
  trailer : Bool
  format : BitVec 4
  engine : BitVec 11
  owner : Bool
  state : BitVec 2
  size : BitVec 18
  base : BitVec 18
deriving DecidableEq, Repr

/-- A fault record of the DRAM transfer queue (06 R88). -/
structure DqFault where
  offset : BitVec 32
  cause : BitVec 7
  entry : BitVec 4
  addr : Word
  resolvable : Bool
  ctx : Nat                    -- the issuing task, for the deferred cause
  epoch : Nat
deriving DecidableEq, Repr

/-- The kinds of DRAM queue entries (10 R187, R188). -/
inductive DqKind where
  | pull | push | gather
deriving DecidableEq, Repr

/-- An entry of the DRAM transfer queue (06 R86 to R88). -/
structure DqEntry where
  kind : DqKind
  ulm : Nat
  va : Nat
  len : Nat
  exp : Nat                    -- the row exponent of DGATH
  list : Nat                   -- the ULM offset of DGATH's index list
  indices : List Nat           -- the indices, once the entry has started
  counter : Nat
  target : Nat                 -- the core whose counter is bumped
  started : Bool
  done : Nat                   -- bytes, or whole rows' bytes, performed from the first on
  suspended : Option Nat       -- the virtual address that faulted, on the page waited on
  order : Nat                  -- issue order
  id : Nat                     -- the request number fences know it by
  after : List Nat             -- what its accesses must follow (07 R101, R103)
  joined : Bool                -- its task had executed AFENCE as it issued (07 R108)
  ctx : Nat
  epoch : Nat
deriving DecidableEq, Repr

/-- A binding (10 R203, 23 R321). -/
structure Binding where
  pc : Ulm
  region : Option Quad
  mode : Mode
deriving DecidableEq, Repr

/-- The running activation's budget count (03 R24, 23 R326). -/
structure Activation where
  begun : Bool                 -- the first instruction has issued
  since : Nat                  -- the cycle counting started or resumed
  spent : Nat                  -- cycles counted before that
  paused : Bool                -- stopped by trap entry
deriving DecidableEq, Repr

/-- A piece of a scoped store: the request it is on, the bytes it writes, and whether a later write of the core's tasks to
any of them suppresses its re-publication; and once the piece has crossed its scope, the cycle by which the handler's write
is performed (07 R112). -/
structure PubPiece where
  id : Nat
  addr : Nat
  len : Nat
  later : Bool
  due : Option Nat
deriving DecidableEq, Repr

/-- An entry of the publication table (07 R112): the scope its store carries, and the pieces not yet done with. -/
structure Pub where
  id : Nat
  scope : Scope
  pieces : List PubPiece
deriving DecidableEq, Repr

/-- A swap in progress (03 R31). -/
structure Swap where
  out : Option Nat
  into : Nat
deriving DecidableEq, Repr

/-- A member of a group (03 R39). -/
structure Member where
  core : Nat
  ctx : Nat
  epoch : Nat
  arrived : Bool
  leaving : Bool               -- counted now, gone from the next phase
  pending : Bool               -- a join that counts from the next phase
  waiter : Option Nat          -- the request number of a BARW that waits
deriving DecidableEq, Repr

/-- A group on its home core (03 R38 to R41). -/
structure Group where
  phase : BitVec 32
  expected : Nat
  members : List Member
deriving DecidableEq, Repr

/-- An entry of a router's fault table (25 R359): the five ports are W, E, N, S, L. -/
structure RouterEntry where
  ctx : Nat
  page : Nat
  mask : BitVec 5
  agents : List Agent          -- what entered on port L
deriving DecidableEq, Repr

/-- A TLB entry and the context it was written for (25 R351, R352). -/
structure TlbEntry where
  ctx : Nat
  bits : Quad
deriving DecidableEq, Repr

/-- A compression dictionary or mirror (27 R393): the partner and the words, most recent first. -/
structure Dict where
  partner : Nat
  words : List (BitVec 32)
deriving DecidableEq, Repr

/-- The control registers of a core (23 R322, 29 R416). -/
structure CoreRegs where
  hndBudget : BitVec 32
  trapVec : BitVec 9
  trapSave : BitVec 10
  fw : TrapRegs
  preStat : BitVec 2
  snapTime : Word
  snapPc0 : Word
  snapPc1 : Word
  snapIssue : Word
  issued : Nat
  lastIssue : Nat              -- the cycle of the last issue, for the watchdog (24 R350)
  netCount : Int               -- messages sent minus received (26 R378)
  netGot : Nat                 -- messages received (26 R378)
deriving DecidableEq, Repr

/-- The queues of a core (03 R36, 06 R86 to R88, 10 R202). -/
structure CoreQueues where
  inbox : List InboxItem
  unbound : List Msg
  dq : Assoc DqEntry
  dqOrder : Nat
  dqFault : Option DqFault     -- the record written last
  dqValid : Bool               -- its valid bit
  dqWaiting : List DqFault
  pubs : List Pub
deriving DecidableEq, Repr

/-- One core. -/
structure Core where
  regs : CoreRegs
  queues : CoreQueues
  counters : Assoc Counter
  tiles : Assoc Tile
  bankFmt : Assoc (BitVec 4)
  bindings : Assoc Binding
  activation : Option Activation
  fetch : Option (Nat × List Byte)
  rr : Nat
  lastIn : Nat
  swap : Option Swap
  groups : Assoc Group
  routes : List RouterEntry
  dicts : List Dict × List Dict
  kernel : Option Nat
  owed : List (Nat × Nat)      -- replies on their way to tasks that have ended (10 R178): slot * 32 + register, and the sender
deriving DecidableEq, Repr

/-! ## One stage -/

/-- A tile task (12 R243 to R250). -/
structure Task where
  words : List (BitVec 32)
  submitter : Nat
  seq : Nat
  acceptedAt : Nat
  admitted : Bool              -- the start gate has admitted it
  status : BitVec 3            -- 1 pending, 2 running, 3 complete, 4 faulted
  cause : BitVec 7
  engine : Nat
  block : Nat                  -- promotion blocks added
  counted : Bool               -- the gate has counted its delay (29 R417)
  filling : Bool               -- its drain tile has been taken (12 R248)
  doomed : Option Nat          -- the tag of a predecessor that has faulted (12 R249)
deriving DecidableEq, Repr

/-- One play of a segment as it stands in an engine's FIFO (12 R239). -/
structure Play where
  format : BitVec 4
  data : List Byte
  scales : List Byte
deriving DecidableEq, Repr

/-- A segment of an operand stream (12 R237, R240); of a DRAM extent, the bytes read so far and the page waited on. -/
inductive Segment where
  | tile (core tile left : Nat) (counter : Option Nat) (begun : Bool)
  | dram (core va len : Nat) (format : BitVec 4) (counter : Option Nat) (data : List Byte) (suspended : Option Nat)
deriving DecidableEq, Repr

/-- An operand stream (12 R239, R241). -/
structure Stream where
  segs : List Segment
  claim : Option Nat           -- the engine whose task claims it
deriving DecidableEq, Repr

/-- A checked summation-by-parts block (05 R70 to R72), decoded: the sorted codes, the permutation and the scale. -/
structure Block where
  kind : BitVec 8
  scale : BitVec 32
  codes : List Int
  perm : List Nat
deriving DecidableEq, Repr

/-- A table slot (13 R263). -/
structure TableSlot where
  block : Block
  pinned : Bool
deriving DecidableEq, Repr

/-- A lane's state after the last pair it processed (13 R265 to R267). -/
structure Lane where
  valid : Bool
  group : Nat
  column : Nat
  row : Nat
  unit : Int
  sums : List Int
  diffs : List Nat
  top : Int
deriving DecidableEq, Repr

/-- A matrix engine. -/
structure Engine where
  acc : Assoc (BitVec 32)      -- accumulator tile t, element (i, j) at t * 16384 + i * 128 + j
  running : Option Nat         -- the sequence number of the task it runs
  fifoA : List Play
  fifoB : List Play
  level : Nat                  -- the current level (26 R373)
  slots : Assoc TableSlot
  lanes : Lane × Lane
deriving DecidableEq, Repr

/-- A destination of a copy command. -/
inductive CopyDest where
  | waiting
  | filling
  | filled
  | failed
deriving DecidableEq, Repr

/-- How far a copy command has come with its source (12 R254): not begun; its tile being drained; its DRAM accesses being
made; read; or failed, with the cause and details of its records. -/
inductive CopySource where
  | waiting
  | draining
  | moving
  | ready
  | failed (cause : BitVec 7) (d0 d1 : Word)
deriving DecidableEq, Repr

/-- An SBPLD or SBPRD that waits for its engine (13 R270, R271): it keeps new starts on that engine back. `pc` is where it
waits, `seq` the submissions before it, and `data` the block an SBPLD has read. -/
structure Hold where
  engine : Nat
  core : Nat
  ctx : Nat
  epoch : Nat
  pc : Ulm
  seq : Nat
  load : Bool
  data : List Byte
deriving DecidableEq, Repr

/-- A copy command (12 R253 to R255). -/
structure Command where
  words : List (BitVec 32)
  core : Nat
  ctx : Nat
  epoch : Nat
  order : Nat
  started : Bool
  source : CopySource
  tile : Nat                   -- the source tile, for kinds 2 and 4
  indices : List Nat           -- the indices of a row gather, once read
  data : List Byte             -- the bytes read so far
  done : Nat                   -- the bytes written to DRAM, for kind 4
  format : BitVec 4            -- the source tile's format, for kind 2
  dests : List CopyDest
  suspended : Option Nat
deriving DecidableEq, Repr

/-- A keeper channel (12 R251). -/
structure Channel where
  entries : Assoc (BitVec 32)  -- buffer b, entry e at b * 128 + e
  full0 : Bool
  full1 : Bool
  fill : Bool
  consume : Bool
deriving DecidableEq, Repr

/-- The forms of a span-list entry (14 R276). -/
inductive SpanForm where
  | interval
  | surface
  | merged
deriving DecidableEq, Repr

/-- A span-list entry (14 R279 to R281). An interval holds exact sums; a surface and a merged entry hold τ and E. -/
structure Span where
  form : SpanForm
  a : BitVec 32
  b : BitVec 32
  rho : FVal
  sigma : FVal × FVal × FVal
  best : BitVec 32             -- the largest contributor's ρ (14 R280)
  tau : BitVec 32
  e : BitVec 32 × BitVec 32 × BitVec 32
  conf : BitVec 8
  kind : BitVec 3
  source : BitVec 16
  prim : BitVec 64
deriving DecidableEq, Repr

/-- A source of a ray (14 R276). -/
structure RaySource where
  registered : Bool
  done : Bool
  settled : BitVec 32
  noticeCore : BitVec 14
  noticeCls : BitVec 8
deriving DecidableEq, Repr

/-- A pending entry of a walk (15 R294): distance, address, child type, record count and the cull flag of its node. -/
structure Pending where
  tn : BitVec 32
  addr : Nat
  kind : Nat
  count : Nat
  cull : Bool
deriving DecidableEq, Repr

/-- The walker of one ray (15 R294). -/
structure Walk where
  root : Nat
  pending : List Pending
  last : Option (BitVec 32 × Nat)
  evicted : Bool
  current : Option Pending     -- popped, its fetch in progress
  suspended : Option Nat       -- the page its fetch waits on
deriving DecidableEq, Repr

/-- A ray slot (14 R276, R277). -/
structure Ray where
  status : BitVec 4
  gen : BitVec 14
  desc : List (BitVec 32)      -- the descriptor's sixteen words (14 R287)
  owner : Nat
  ctx : Nat
  sources : List RaySource
  spans : List Span
  clip : Option (BitVec 32 × BitVec 3 × BitVec 64)
  front : BitVec 32
  colour : BitVec 32 × BitVec 32 × BitVec 32
  consumed : BitVec 32
  overflow : BitVec 8
  walk : Option Walk
deriving DecidableEq, Repr

/-- The per-context registers of a traversal unit (15 R299). -/
structure TravCtx where
  eps : BitVec 32
  limit : BitVec 16
  misses : BitVec 32
deriving DecidableEq, Repr

/-- One stage's units. -/
structure Stage where
  engines : Assoc Engine
  channels : Assoc Channel
  keeper : BitVec 15
  translation : BitVec 23
  tasks : List Task
  ended : List Task            -- the last 64 that ended, newest first
  seq : Nat
  holds : List Hold
  streams : Assoc Stream
  commands : Assoc Command
  commandOrder : Nat
  rays : Assoc Ray
  trav : Assoc TravCtx
  decGen : BitVec 16
  decExt : List (BitVec 32 × BitVec 32) -- the installed entries of major 29 (08 R138): mask and match of the words each expands
  snaps : Assoc Word
  halted : Nat                 -- the step of pre-emption that its partition has reached; 0 for none (23 R335)
deriving DecidableEq, Repr

/-! ## One die -/

/-- How far a raster unit has come with a record (16 R304): the index and vertex bytes read, and the samples performed. -/
structure Drawing where
  indices : List Byte
  vertices : List Byte
  done : Nat
deriving DecidableEq, Repr

/-- A raster queue (16 R304 to R307). -/
structure RasterQueue where
  desc : List (BitVec 32)
  opened : Bool
  left : Nat
  records : List (Nat × Nat × List (BitVec 32)) -- sequence number, submitting core, words
  seq : Nat
  node : Nat                   -- the partition that opened it
  drawing : Option Drawing     -- of the head record, once it is in progress
  suspended : Option Nat
deriving DecidableEq, Repr

/-- A ramp in progress (26 R373): the cycle it ends, and its slope ΔI * 3300 / L. -/
structure Ramp where
  ends : Nat
  step : Nat
  length : Nat
deriving DecidableEq, Repr

/-- One die's raster units, gate and telemetry. -/
structure Die where
  queues : Assoc RasterQueue   -- unit * 64 + queue
  didt : BitVec 10
  didtOld : BitVec 10          -- its value before the cycle of the last write, which an admission of that cycle uses (26 R381)
  didtAt : Nat
  engRamp : BitVec 12
  ramps : List Ramp
  delayed : Nat
  heldCycles : Nat
  telSeq : BitVec 8
  telAt : Nat
deriving DecidableEq, Repr

/-! ## The package -/

/-- An entry of a pending-launch store (26 R367, R368). -/
structure Launch where
  ticket : Nat                 -- the ticket of 10 R205
  header : Nat
  priority : Nat
  args : List Byte
  argVa : Option Nat           -- a host record's argument block
  argSize : Nat
  hostTag : Option (BitVec 32)
  completion : Nat
  takenAt : Word               -- timestamp
  order : Nat                  -- the order entries were taken in
  image : Option (List Byte × List Byte × List Byte)  -- header, code with data image, tables, once read and accepted
  suspended : Option Nat
deriving DecidableEq, Repr

/-- The coloured probe of mode 1 (26 R378). -/
structure Probe where
  place : Nat                  -- the position in the core list
  sum : Int
  black : Bool
  seen : Assoc Nat             -- by core, the messages it had received when a probe last passed
deriving DecidableEq, Repr

/-- A partition (28 R394 to R396, 26 R367, R378 to R380). -/
structure Partition where
  stages : List Nat
  frames : List (Nat × Nat)    -- 64 KiB frames of tier 0: first and count
  weights : Assoc Nat
  store : Assoc Launch
  seq : Nat
  errBase : BitVec 61
  errPtr : BitVec 56
  pgBase : BitVec 61
  pgPtr : BitVec 56
  state : BitVec 2
  saveBase : BitVec 57
  transit : BitVec 16
  hold : BitVec 16
  mode : Bool                  -- of the detection in progress (26 R379)
  modeSet : Bool               -- `quiesce.ctl` [0]
  quietSince : Option Nat
  probe : Probe
  saveDone : Nat               -- bytes of the save area written, or read back, so far
  saveFailed : Bool            -- the save's access that cannot be made has been reported (28 R403)
  saveWait : Option Nat        -- the page that the save area's access waits on
deriving DecidableEq, Repr

/-- A kernel placed and not retired (26 R371, R372). -/
structure Kernel where
  part : Nat
  cores : List Nat
  threads : Nat
  stack : Nat
  dataBase : Nat
  dataSize : Nat
  argOff : Nat
  argSize : Nat
  first : Nat
  classes : List Nat
  hostTag : Option (BitVec 32)
  completion : Nat
  minGen : Nat                 -- the least decode-table generation it runs under (28 R410)
  quietSince : Option Nat      -- the cycle from which the conditions of its retirement hold (26 R372)
  mode : Bool                  -- of the detection in progress (26 R379)
  probe : Probe
deriving DecidableEq, Repr

/-- A link (28 R400, R401). -/
structure Link where
  replays : BitVec 32
  lanes : BitVec 8
  state : BitVec 2
deriving DecidableEq, Repr

/-- A stack's refresh management (27 R391). -/
structure Hbm where
  level : BitVec 12
  credit : BitVec 12
  counts : Assoc Nat
deriving DecidableEq, Repr

/-- What a lower grade lacks (29 R413). -/
structure Grade where
  code : BitVec 8
  noStage : List Nat
  noEngine : List Nat          -- stage * 4 + engine
  noRaster : List Nat          -- die * 4 + unit
  groups : List (List Nat)     -- by stack, the pseudo-channel groups present
  hostLanes : Nat
  peerLanes : Nat
deriving DecidableEq, Repr

/-- What the save area of a partition holds beside the ULM bytes (23 R336), from its save on: the free-value number of the bytes
that only the device reads, the grade and the decode-table generations it is valid for, and by stage the engines and the
streams; and the CRC of the part that a restore is reading. -/
structure Saved where
  seed : Nat
  grade : Grade
  gens : List (BitVec 16)
  engines : Assoc (Assoc Engine)
  streams : Assoc (Assoc Stream)
  crc : BitVec 32
deriving DecidableEq, Repr

/-- The curtain while it is raised (29 R416). -/
structure Curtain where
  time : Word
  raisedAt : Nat
  core : Nat
  id : Nat                     -- the request that brings the timestamp to d
  latched : List Nat           -- the blocks that have latched, those that missed the window among them
deriving DecidableEq, Repr

/-- A firmware image (29 R411, R412): `name` says which unit's firmware it is. -/
structure Image where
  name : Nat
  bytes : List Byte
  signature : List Byte
  measured : List Byte
  installed : Bool
  decGen : BitVec 16           -- the generation of its decode table (08 R138)
  decExt : List (BitVec 32 × BitVec 32) -- its table's major 29 entries
deriving DecidableEq, Repr

/-- What the start sequence keeps (29 R411, R412). -/
structure Boot where
  started : Bool
  lastStart : BitVec 2
  selfRefresh : Bool
  calibration : Option (List Byte × BitVec 32)  -- the stored calibration of step 3, with its CRC-32C
  settings : Bool              -- the settings are stored, and each passes its check
  images : List Image
  stored : List (Nat × List Byte)  -- the stored measurements
  plan : Assoc Partition       -- the partitions firmware creates at a start
deriving DecidableEq, Repr

/-- What a live update is for (29 R415). -/
inductive FirmwareUnit where
  | decode (stage : Nat)               -- the decode table of a stage
  | translation                        -- translation firmware
  | house (stack house : Nat)          -- the firmware of one house core
  | traversal (stage : Nat)            -- traversal microcode
  | calibration (stack channel : Nat)  -- the calibration of one pseudo-channel
  | lane (port : Nat)                  -- one lane of a link; 16 is the host link
deriving DecidableEq, Repr

/-- A live update that firmware has at hand; a calibration and a lane come without an image. -/
structure Update where
  unit : FirmwareUnit
  image : Option Image
deriving DecidableEq, Repr

/-- The live update under way: the unit drains, and then swaps. -/
structure UnitSwap where
  update : Update
  swapping : Bool
  lanes : BitVec 8             -- the width to which a link returns
deriving DecidableEq, Repr

/-- A request of a peer that waits at a port (28 R398). -/
inductive PeerReq where
  | read (phys len : Nat)
  | write (phys : Nat) (bytes : List Byte)
  | atomic (phys : Nat) (a : Atomic)
deriving DecidableEq, Repr

/-- What firmware and the device's outside see of the whole package. -/
structure Service where
  machineCheck : List CauseRecord
  telemetry : List (List Byte)
  quotes : List (List Byte)
  curtain : Option Curtain
  boot : Boot
  grants : Assoc (List (Nat × Nat)) -- the frames granted to each peer port (28 R398): first and count
  peers : Assoc (List PeerReq)  -- peer requests that wait, by port
  answers : Assoc (List (Option (List Byte))) -- what returns to each peer; none for a refused access
  saved : Assoc Saved          -- by partition, what its save area holds (23 R336)
  served : Nat                 -- the partition that the dispatch front end placed for last (26 R371)
  absent : BitVec 3            -- the features of 28 R405 that firmware reports absent
  aligns : Assoc Nat           -- by a kernel object's header CRC, the exponent of the largest `.align` of its data (28 R406)
  updates : List Update        -- the live updates that wait (29 R415)
  update : Option UnitSwap
deriving DecidableEq, Repr

end Sys2Proof.Machine
end

