-- ==== Sys2Proof/Machine/State.lean ====
section
/-!
DEFINITION. State.lean: the machine's state, the reasons a run can stop, and the state after reset.
Everything is plain data. Cores, contexts, stages, dies and partitions stand in maps whose default is the reset value.
-/

namespace Sys2Proof.Machine

/-- Why a run stops with a fault. The spec turns every such condition into a trap or a record (24 R339), so this model
has none; the type is closed and empty of reasons. -/
inductive Fault where
  /-- Raised by no meaning of this model. Safe. -/
  | neverRaised
deriving DecidableEq, Repr

/-- Why a step has no meaning. -/
inductive Refusal where
  /-- An arm of `exec` whose meaning is not written. Safe: a run stops. -/
  | notModelled (mnemonic : String)
  /-- An installed decode-table entry of major 29, whose effect only the firmware image states (08 R138). Safe. -/
  | firmwareExtension
deriving DecidableEq, Repr

/-- Who takes the next step. -/
inductive Mover where
  | issue (core : Nat)         -- a core issues an instruction
  | event (i : Instr)          -- an event of the device comes about
  | idle                       -- time passes
deriving DecidableEq, Repr

/-- One entry of the agenda: who moves, the cycles the step takes, whether the core's fetch buffer is refilled first
(06 R96), the soft error, if any, that the instruction meets, and the bits of stored DRAM granules that flip meanwhile. -/
structure Choice where
  mover : Mover
  cycles : Nat
  refetch : Bool
  soft : Option Soft
  flips : List Nat
deriving DecidableEq, Repr

/-- The state of the device. -/
structure State where
  threads : Assoc Thread       -- core * 32 + context (0-15 slots, 16 the handler context)
  cores : Assoc Core
  stages : Assoc Stage
  dies : Assoc Die
  parts : Assoc Partition
  kernels : Assoc Kernel
  tlbs : Assoc (Assoc TlbEntry)
  links : Assoc Link
  hbm : Assoc Hbm
  mem : List Host.Cell         -- ULM, by on-chip map address (06 R79)
  tags : List Nat              -- tagged granules of ULM, by map address / 16, rising (04 R50)
  dram : List Host.Cell        -- DRAM: tier * 2^64 + peer port * 2^60 + physical address
  layouts : Assoc Nat          -- the mapping each stored 32-byte sector of tier 0 was last stored under (27 R383)
  aliases : List Alias         -- older values of DRAM bytes that another virtual address may still read (07 R108)
  flips : List Nat             -- bits in error in stored granules (27 R385): address * 8 + bit; check bits from 2^70 on
  reqs : List Req              -- what is in flight, oldest first
  service : Service
  grade : Grade
  cycle : Nat                  -- core cycles since reset (00 R4)
  time0 : Word                 -- the global timestamp at cycle 0
  agenda : List Choice
  cur : Nat × Nat              -- the core and context an instruction is executed in
  freeIx : Nat
  turn : Nat                   -- steps of the default order so far
  nextId : Nat
deriving DecidableEq, Repr

/-- An untagged zero, full (04 R44). -/
def XReg.zero : XReg := ⟨0#128, false, true⟩

/-- A zero vector, full. -/
def VReg.zero : VReg := ⟨0#512, true⟩

/-- A cleared set of trap registers. -/
def TrapRegs.zero : TrapRegs := ⟨0#7, 0#18, 0#64, 0#8⟩

/-- A generator bound to nothing. -/
def Gen.free : Gen := ⟨false, false, 0#2, 0#2, 0#128, false, 0#32, [], []⟩

/-- A context's image at reset, and at the start of a task but for what R21, R26 and R34 place (03 R27). -/
def Context.zero : Context where
  pc := 0#18
  x := Vector.replicate 32 XReg.zero
  v := Vector.replicate 16 VReg.zero
  m := Vector.replicate 8 0#64
  loops := ⟨0#2, ⟨0#17, 0#17, 0#32⟩, ⟨0#17, 0#17, 0#32⟩⟩
  fpCtrl := 0#13
  fpFlags := 0#5
  inlinePc := 0#18
  inlineValid := false
  mode := .user
  trap := TrapRegs.zero
  gens := Vector.replicate 4 Gen.free
  windowed := 0#48

/-- A free slot. -/
def Slot.free : Slot := ⟨.free, .retry, false, false, false, 0, 0, none, [], [], none, [], false, none, 0⟩

/-- A free context. -/
def Thread.free : Thread := ⟨Context.zero, Slot.free⟩

/-- A counter at reset (04 R56). -/
def Counter.zero : Counter := ⟨0#8, 0#32⟩

/-- A tile table entry at reset (04 R57). -/
def Tile.empty : Tile := ⟨false, false, 0#4, 0#11, false, 0#2, 0#18, 0#18⟩

/-- A core at reset: `hnd.budget` 65,536 (03 R24), all else zero or empty. DESIGN CHOICE (log 73): the cyclic
order of 03 R31 starts after slot 0, and a thread started straight into a free shadow context does not count as the slot
swapped in last. -/
def Core.reset : Core where
  regs := ⟨65536#32, 0#9, 0#10, TrapRegs.zero, 0#2, 0#64, 0#64, 0#64, 0#64, 0, 0, 0, 0⟩
  queues := ⟨[], [], [], 0, none, false, [], []⟩
  counters := []
  tiles := []
  bankFmt := []
  bindings := []
  activation := none
  fetch := none
  rr := 0
  lastIn := 0
  swap := none
  groups := []
  routes := []
  dicts := ([], [])
  kernel := none
  owed := []

/-- A lane at reset (13 R266, R267). -/
def Lane.reset : Lane := ⟨false, 0, 0, 0, 0, [], [], 0⟩

/-- A matrix engine at reset. -/
def Engine.reset : Engine := ⟨[], none, [], [], 0, [], (Lane.reset, Lane.reset)⟩

/-- A keeper channel at reset: both buffers free, both pointers at buffer 0 (12 R251). -/
def Channel.reset : Channel := ⟨[], false, false, false, false⟩

/-- A keeper entry that nothing has written since its buffer was freed reads as the canonical NaN (12 R251). -/
def Channel.unwritten : BitVec 32 := 0x7FC00000#32

/-- A free ray slot: its generation starts at 1 (14 R275). -/
def Ray.free : Ray := ⟨0#4, 1#14, [], 0, 0, [], [], none, 0#32, (0#32, 0#32, 0#32), 0#32, 0#8, none⟩

/-- A traversal context's registers at reset (15 R299). -/
def TravCtx.reset : TravCtx := ⟨0x3A83126F#32, 64#16, 0#32⟩

/-- A stream with nothing in it. -/
def Stream.empty : Stream := ⟨[], none⟩

/-- A stage at reset. -/
def Stage.reset : Stage where
  engines := []
  channels := []
  keeper := 0#15
  translation := 0#23
  tasks := []
  ended := []
  seq := 0
  holds := []
  streams := []
  commands := []
  commandOrder := 0
  rays := []
  trav := []
  decGen := 1#16
  decExt := []
  snaps := []
  halted := 0

/-- An idle raster queue. -/
def RasterQueue.idle : RasterQueue := ⟨[], false, 0, [], 0, 0, none, none⟩

/-- A die at reset: `didt.limit` 1,023 and `eng.ramp` 264 (26 R376). -/
def Die.reset : Die := ⟨[], 1023#10, 1023#10, 0, 264#12, [], 0, 0, 0#8, 0⟩

/-- A partition number that names no partition. -/
def Partition.absent : Partition where
  stages := []
  frames := []
  weights := []
  store := []
  seq := 0
  errBase := 0#61
  errPtr := 0#56
  pgBase := 0#61
  pgPtr := 0#56
  state := 0#2
  saveBase := 0#57
  transit := 0#16
  hold := 4096#16
  mode := false
  modeSet := false
  quietSince := none
  probe := ⟨0, 0, false, []⟩
  saveDone := 0
  saveFailed := false
  saveWait := none

/-- A peer port at reset: full width, up (28 R401: the device chooses). -/
def Link.peer : Link := ⟨0#32, 8#8, 2#2⟩

/-- The host link at reset. -/
def Link.host : Link := ⟨0#32, 32#8, 2#2⟩

/-- A stack's refresh management at reset (27 R391). -/
def Hbm.reset : Hbm := ⟨80#12, 40#12, []⟩

/-- The full part (29 R413, R414). -/
def Grade.full : Grade := ⟨0#8, [], [], [], List.replicate 12 [0, 1, 2, 3], 32, 8⟩

/-- Nothing started. -/
def Boot.reset : Boot := ⟨false, 0#2, false, none, false, [], [], []⟩

/-- The service state at reset. -/
def Service.reset : Service := ⟨[], [], [], none, Boot.reset, [], [], [], [], 255, 0#3, [], [], none⟩

/-- The device right after reset: every field at the value the spec gives, or the one INVENTORY.md and the log name. -/
def State.reset : State where
  threads := []
  cores := []
  stages := []
  dies := []
  parts := []
  kernels := []
  tlbs := []
  links := []
  hbm := []
  mem := []
  tags := []
  dram := []
  layouts := []
  aliases := []
  flips := []
  reqs := []
  service := Service.reset
  grade := Grade.full
  cycle := 0
  time0 := 0#64
  agenda := []
  cur := (0, 0)
  freeIx := 0
  turn := 0
  nextId := 0

end Sys2Proof.Machine
end

