-- ==== Sys2Proof/Machine/Ops.lean ====
section
/-!
DEFINITION. Ops.lean: the named operations over the state: where each piece of state is read and written, what an
instruction's attempt can end in, taking a trap (23 R325) and returning from one (R330), and how an instruction retires.
-/

namespace Sys2Proof.Machine

/-! ## Reading and writing the pieces -/

def State.thread (s : State) (core ctx : Nat) : Thread := Assoc.get Thread.free s.threads (core * 32 + ctx)

def State.setThread (s : State) (core ctx : Nat) (t : Thread) : State :=
  { s with threads := s.threads.set (core * 32 + ctx) t }

def State.core (s : State) (core : Nat) : Core := Assoc.get Core.reset s.cores core

def State.setCore (s : State) (core : Nat) (c : Core) : State := { s with cores := s.cores.set core c }

def State.stage (s : State) (st : Nat) : Stage := Assoc.get Stage.reset s.stages st

def State.setStage (s : State) (st : Nat) (v : Stage) : State := { s with stages := s.stages.set st v }

def State.die (s : State) (d : Nat) : Die := Assoc.get Die.reset s.dies d

def State.setDie (s : State) (d : Nat) (v : Die) : State := { s with dies := s.dies.set d v }

def State.part (s : State) (p : Nat) : Partition := Assoc.get Partition.absent s.parts p

def State.setPart (s : State) (p : Nat) (v : Partition) : State := { s with parts := s.parts.set p v }

/-- A link that nothing has changed since the start: up, with the lanes that the grade leaves it (28 R401, 29 R413). -/
def Grade.link (g : Grade) (p : Nat) : Link :=
  if p = 16 then { Link.host with lanes := BitVec.ofNat 8 g.hostLanes } else { Link.peer with lanes := BitVec.ofNat 8 g.peerLanes }

def State.link (s : State) (p : Nat) : Link := Assoc.get (s.grade.link p) s.links p

def State.setLink (s : State) (p : Nat) (v : Link) : State := { s with links := s.links.set p v }

/-- Does a live update drain or swap a unit? Work aimed at it waits (29 R415). -/
def State.updating (s : State) (p : FirmwareUnit → Bool) : Bool :=
  match s.service.update with
  | none => false
  | some w => p w.update.unit

def State.stack (s : State) (k : Nat) : Hbm := Assoc.get Hbm.reset s.hbm k

def State.setStack (s : State) (k : Nat) (v : Hbm) : State := { s with hbm := s.hbm.set k v }

def State.setQueues (s : State) (core : Nat) (q : CoreQueues) : State :=
  s.setCore core { s.core core with queues := q }

def State.setRegs (s : State) (core : Nat) (r : CoreRegs) : State :=
  s.setCore core { s.core core with regs := r }

def Core.counter (c : Core) (n : Nat) : Counter := Assoc.get Counter.zero c.counters n

def Core.tile (c : Core) (n : Nat) : Tile := Assoc.get Tile.empty c.tiles n

def State.setTile (s : State) (core n : Nat) (t : Tile) : State :=
  s.setCore core { s.core core with tiles := Assoc.put Tile.empty (s.core core).tiles n t }

def State.setCounter (s : State) (core n : Nat) (c : Counter) : State :=
  s.setCore core { s.core core with counters := Assoc.put Counter.zero (s.core core).counters n c }

def Stage.engine (g : Stage) (e : Nat) : Engine := Assoc.get Engine.reset g.engines e

def State.setEngine (s : State) (st e : Nat) (v : Engine) : State :=
  s.setStage st { s.stage st with engines := (s.stage st).engines.set e v }

/-- The global timestamp (00 R4): 1 GHz beside the 3.3 GHz core clock. -/
def State.time (s : State) : Word := s.time0 + BitVec.ofNat 64 (s.cycle * 10 / 33)

/-! ## The geometry of the package (01 R10, R11) -/

def rowOf (pair : Nat) : Nat := pair / 128 % 128

def colOf (pair : Nat) : Nat := pair % 128

/-- Does the pair name a core of the full part? Rows 80 to 127 name none. -/
def isCore (pair : Nat) : Bool := decide (pair < 16384) && decide (rowOf pair < 80)

def dieOf (pair : Nat) : Nat := (if colOf pair < 64 then 0 else 1) + (if rowOf pair < 40 then 0 else 2)

/-- The stage of a core: die * 40 + stage row * 8 + stage column. -/
def stageOf (pair : Nat) : Nat := dieOf pair * 40 + rowOf pair % 40 / 8 * 8 + colOf pair % 64 / 8

/-- The die of a stage. -/
def dieOfStage (st : Nat) : Nat := st / 40

/-- The core at core column c and core row r of a stage. -/
def coreAt (st r c : Nat) : Nat :=
  ((st / 40 / 2) * 40 + st % 40 / 8 * 8 + r) * 128 + (st / 40 % 2) * 64 + st % 8 * 8 + c

/-- The cores of a stage, in the order of 28 R395. -/
def coresOf (st : Nat) : List Nat :=
  (List.range 64).map fun i => coreAt st (i / 8) (i % 8)

/-- The engine name of 04 R57 for a unit of a stage: die, stage row, stage column, unit. -/
def engineName (st unit : Nat) : BitVec 11 :=
  BitVec.ofNat 2 (st / 40) ++ BitVec.ofNat 3 (st % 40 / 8) ++ BitVec.ofNat 3 (st % 8) ++ BitVec.ofNat 3 unit

/-- The partition a stage belongs to (28 R394). -/
def State.partOfStage (s : State) (st : Nat) : Option Nat :=
  (s.parts.find? fun e => e.2.stages.contains st).map Prod.fst

def State.partOf (s : State) (core : Nat) : Option Nat := s.partOfStage (stageOf core)

/-- Is a stage in the partition of a core? A core in no partition reaches only its own stage (28 R394). -/
def State.sameStage (s : State) (core st : Nat) : Bool :=
  match s.partOf core with
  | some p => (s.part p).stages.contains st
  | none => st == stageOf core

def State.samePart (s : State) (core other : Nat) : Bool := s.sameStage core (stageOf other)

/-- A partition's core list (28 R395). -/
def State.coreList (s : State) (p : Nat) : List Nat := (s.part p).stages.flatMap coresOf

/-! ## ULM and its tags (06 R77, R79; 04 R50) -/

/-- The map address of a ULM offset of a core. -/
def ulmAddr (core off : Nat) : Nat := core * 1048576 + off

def State.readByte (s : State) (a : Nat) : Byte := Assoc.get 0#8 s.mem a

/-- A run of bytes, the lowest address first. -/
def State.readBytes (s : State) (a : Nat) : Nat → List Byte
  | 0 => []
  | n + 1 => s.readByte a :: State.readBytes s (a + 1) n

/-- The little-endian number a list of bytes holds (00 R3). -/
def natOfBytes : List Byte → Nat
  | [] => 0
  | b :: bs => b.toNat + 256 * natOfBytes bs

/-- The n low bytes of a number, little-endian. -/
def bytesOfNat : Nat → Nat → List Byte
  | 0, _ => []
  | n + 1, v => BitVec.ofNat 8 v :: bytesOfNat n (v / 256)

def State.readNat (s : State) (a n : Nat) : Nat := natOfBytes (s.readBytes a n)

/-- The canonical form of a memory: addresses strictly rising, and no entry that equals what an unlisted address reads as. -/
def Memory.wf (m : List Host.Cell) : Bool := Assoc.wf 0#8 m

/-- Memory with a run of bytes stored. -/
def storeBytes (m : List Host.Cell) (a : Nat) : List Byte → List Host.Cell
  | [] => m
  | b :: bs => storeBytes (Assoc.put 0#8 m a b) (a + 1) bs

/-- The granules that n bytes at an address touch. -/
def granules (a n : Nat) : List Nat :=
  if n = 0 then [] else (List.range ((a + n - 1) / 16 - a / 16 + 1)).map (a / 16 + ·)

/-- Insert into a rising list without repeats. -/
def insertNat (x : Nat) : List Nat → List Nat
  | [] => [x]
  | y :: ys => if x < y then x :: y :: ys else if x = y then y :: ys else y :: insertNat x ys

def State.tagAt (s : State) (a : Nat) : Bool := s.tags.contains (a / 16)

/-- A write of ULM bytes that is no tagged store clears the tag of every granule it touches (04 R50). -/
def State.writeBytes (s : State) (a : Nat) (bs : List Byte) : State :=
  { s with
    mem := storeBytes s.mem a bs
    tags := s.tags.filter fun t => !((granules a bs.length).contains t) }

/-- A 16-byte write that also sets the granule's tag bit (04 R50). -/
def State.writeTagged (s : State) (a : Nat) (bs : List Byte) (tag : Bool) : State :=
  let t := s.writeBytes a bs
  if tag then { t with tags := insertNat (a / 16) t.tags } else t

/-! ## Requests in flight (07 R97) -/

/-- Put a request in flight; it gets the next number. -/
def State.push (s : State) (r : Req) : State :=
  { s with reqs := s.reqs ++ [{ r with id := s.nextId }], nextId := s.nextId + 1 }

def State.req (s : State) (id : Nat) : Option Req := s.reqs.find? fun r => r.id == id

def State.drop (s : State) (id : Nat) : State := { s with reqs := s.reqs.filter fun r => r.id != id }

def State.replace (s : State) (r : Req) : State :=
  { s with reqs := s.reqs.map fun q => if q.id == r.id then r else q }

/-- Where a request's value is written when it arrives late. -/
def Body.dest : Body → Option Dest
  | .read _ _ _ d => some d
  | .reply d _ _ => some d
  | .divide d _ => some d
  | .awaited _ _ d => some d
  | .atomic a => some a.dst
  | .atomicReply d _ _ _ => some d
  | .spawn _ _ _ _ _ d => some d
  | .spawnAnswer _ _ _ _ _ _ d => some d
  | _ => none

/-- The element of an appending stream that a request's value is to be stored at. -/
def Body.element (b : Body) : Option Element :=
  match b.dest with
  | some (.append e) => some e
  | _ => none

/-- Is a request, a reserved element's store or a DRAM queue entry still to be performed (10 R193)? -/
def State.inFlight (s : State) (id : Nat) : Bool :=
  (s.reqs.any fun r => r.id == id || r.body.element.any fun e => e.id == id) ||
    s.cores.any fun c => c.2.queues.dq.any fun e => e.2.id == id

/-- May a request be performed now: is everything it must follow performed? -/
def State.mayRun (s : State) (r : Req) : Bool := r.after.all fun i => !s.inFlight i

/-- A request the device itself makes: no task's event, aimed at nothing a fence names. -/
def Req.device (core : Nat) (body : Body) : Req := ⟨0, core, 16, 0, none, .system, [], body⟩

/-! ## What an attempt to execute can end in -/

/-- Why an instruction does not complete. -/
inductive Stop where
  | wait                                           -- it waits at issue (04 R52), or for a queue or unit
  | trap (cause : BitVec 7) (addr : Word)          -- a precise trap (24 R339)
  | trapNext (cause : BitVec 7) (addr : Word)      -- a precise trap with next = 1 (23 R325)
  | fp (cause : BitVec 7) (flags : BitVec 5)       -- "floating-point exception": the flags are set first (05 R68)
  | waitWith (s : State) (w : Wait)                -- it waits, and what it started meanwhile stands

/-- How an instruction that completes goes on. -/
inductive Next where
  | seq                                            -- the next instruction, or a loop-back (03 R42)
  | jump (pc : Ulm)                                -- a taken transfer (03 R43)
  | hold (w : Wait)                                -- it holds until its answer comes, at its own pc
  | stay                                           -- the meaning has set the pc and the slot itself

/-- An operation over the state that may stop. -/
abbrev Op (α : Type) := StateT State (Except Stop) α

/-- Stop. -/
def stop {α : Type} (r : Stop) : Op α := fun _ => .error r

/-- Raise a cause precisely: the instruction changes no other state (08 R140). -/
def trap {α : Type} (c : BitVec 7) (addr : Word) : Op α := stop (.trap c addr)

/-- Go on only if the test holds; otherwise raise the cause. -/
def require (b : Bool) (c : BitVec 7) (addr : Word) : Op Unit := if b then pure () else trap c addr

/-- Go on only if the test holds; otherwise wait at issue. -/
def await (b : Bool) : Op Unit := if b then pure () else stop .wait

def State.curThread (s : State) : Thread := s.thread s.cur.1 s.cur.2

def State.setCur (s : State) (t : Thread) : State := s.setThread s.cur.1 s.cur.2 t

def State.img (s : State) : Context := s.curThread.img

def State.setImg (s : State) (c : Context) : State := s.setCur { s.curThread with img := c }

def State.setSlot (s : State) (v : Slot) : State := s.setCur { s.curThread with slot := v }

/-! ## Fetch (06 R96, 08 R126) -/

/-- The aligned word at a ULM offset of a core, as fetch sees it: from the fetch buffer where it holds the word. -/
def State.fetchWord (s : State) (core off : Nat) : BitVec 32 :=
  let direct := wordOfBytes (s.readBytes (ulmAddr core off) 4)
  match (s.core core).fetch with
  | some (base, bs) =>
    if base ≤ off ∧ off + 4 ≤ base + bs.length then wordOfBytes (bs.drop (off - base)) else direct
  | none => direct

/-- The fetch buffer after a fetch at an offset: refilled where it does not hold the word, or where the word begins a long
instruction whose second word it does not hold, so that no instruction mixes old and new. -/
def State.refill (s : State) (core off : Nat) : State :=
  let base := off / 32 * 32
  let fresh := s.setCore core { s.core core with fetch := some (base, s.readBytes (ulmAddr core base) 32) }
  match (s.core core).fetch with
  | some (b, bs) =>
    if b ≤ off ∧ off + 4 ≤ b + bs.length ∧ (off + 8 ≤ b + bs.length ∨ sizeAt (s.fetchWord core off) false ≠ 8) then s
    else fresh
  | none => fresh

/-- The aligned word that holds the pc, and the next aligned one. -/
def State.wordAt (s : State) (core : Nat) (pc : Ulm) : BitVec 32 :=
  s.fetchWord core (pc.toNat / 4 * 4)

/-- The word that follows the last one of ULM is its first (DESIGN CHOICE, log 83). -/
def State.wordAfter (s : State) (core : Nat) (pc : Ulm) : BitVec 32 :=
  s.fetchWord core ((pc.toNat / 4 * 4 + 4) % 262144)

/-- The instruction at the pc of a context (08 R127). -/
noncomputable def State.decodeAtPc (s : State) (core : Nat) (pc : Ulm) : Decoded :=
  decodeAt (s.wordAt core pc) (s.wordAfter core pc) (pc.toNat % 4 == 2)

/-- The aligned instruction word at the current pc, zero-extended: the value that many causes record (24 R343). -/
def State.curWord (s : State) : Word := (s.wordAt s.cur.1 s.img.pc).setWidth 64

/-- `next_pc(pc)` (08 R140). -/
def State.nextPc (s : State) (core : Nat) (pc : Ulm) : Ulm :=
  pc + BitVec.ofNat 18 (sizeAt (s.wordAt core pc) (pc.toNat % 4 == 2))

/-! ## Hardware loops (03 R42, R43; 09 R168) -/

def LoopStack.top (l : LoopStack) : LoopEntry := if l.depth = 2#2 then l.e1 else l.e0

def LoopStack.pop (l : LoopStack) : LoopStack := if l.depth = 0#2 then l else { l with depth := l.depth - 1#2 }

def LoopStack.setTop (l : LoopStack) (e : LoopEntry) : LoopStack :=
  if l.depth = 2#2 then { l with e1 := e } else { l with e0 := e }

/-- Push an entry; the caller has checked that the stack is not full. -/
def LoopStack.push (l : LoopStack) (e : LoopEntry) : LoopStack :=
  if l.depth = 0#2 then { l with depth := 1#2, e0 := e } else { l with depth := 2#2, e1 := e }

def LoopEntry.startPc (e : LoopEntry) : Ulm := e.start ++ 0#1

def LoopEntry.stopPc (e : LoopEntry) : Ulm := e.stop ++ 0#1

/-- `loop_end_test` (03 R42), over at most the two entries the stack holds: the stack after it, and the loop-back if any. -/
def loopEndTest (pc : Ulm) : Nat → LoopStack → LoopStack × Option Ulm
  | 0, l => (l, none)
  | n + 1, l =>
    if l.depth ≠ 0#2 ∧ l.top.stopPc = pc then
      let c := l.top.count - 1#32
      let l' := l.setTop { l.top with count := c }
      if c ≠ 0#32 then (l', some l.top.startPc) else loopEndTest pc n l'.pop
    else (l, none)

/-- Does an entry's end lie strictly inside the instruction from pc to next? -/
def LoopEntry.crossed (e : LoopEntry) (pc next : Ulm) : Bool := decide (pc < e.stopPc) && decide (e.stopPc < next)

/-- An entry whose end lies strictly inside the instruction from pc to next is popped, with any entry inside it (09 R168). -/
def crossEnd (pc next : Ulm) (l : LoopStack) : LoopStack :=
  if l.depth ≠ 0#2 ∧ l.e0.crossed pc next then { l with depth := 0#2 }
  else if l.depth = 2#2 ∧ l.e1.crossed pc next then { l with depth := 1#2 }
  else l

/-- The stack and the pc after an instruction in sequence. -/
def seqLoop (pc next : Ulm) (l : LoopStack) : LoopStack × Ulm :=
  match loopEndTest pc 2 l with
  | (l', some back) => (l', back)
  | (l', none) => (crossEnd pc next l', next)

def LoopEntry.holds (e : LoopEntry) (t : Ulm) : Bool := decide (e.startPc ≤ t) && decide (t ≤ e.stopPc)

/-- A taken transfer pops the entry whose body does not hold the target, with any entry inside it (03 R43). -/
def leaveLoops (t : Ulm) (l : LoopStack) : LoopStack :=
  if l.depth = 0#2 then l
  else if !l.e0.holds t then { l with depth := 0#2 }
  else if l.depth = 2#2 ∧ !l.e1.holds t then { l with depth := 1#2 }
  else l

/-! ## Blocking and retiring -/

/-- A context begins to wait, or goes on waiting (03 R28). -/
def Slot.block (v : Slot) (cycle : Nat) (w : Wait) : Slot :=
  { v with status := .blocked, wait := w, since := if v.status = .blocked then v.since else cycle }

def Slot.wake (v : Slot) : Slot := { v with status := .ready, wait := .retry }

def State.block (s : State) (core ctx : Nat) (w : Wait) : State :=
  s.setThread core ctx { s.thread core ctx with slot := (s.thread core ctx).slot.block s.cycle w }

/-- An activation's budget count when an instruction issues in a context: its first starts the count (03 R24). -/
def Activation.start (a : Activation) (cycle ctx : Nat) : Activation :=
  if ctx = 16 ∧ !a.begun then { a with begun := true, since := cycle } else a

/-- An instruction has issued that waits or traps: it starts the activation's budget count. -/
def State.startCount (s : State) (core ctx : Nat) : State :=
  let c := s.core core
  s.setCore core { c with activation := c.activation.map fun a => a.start s.cycle ctx }

/-- Count an issued instruction (29 R416, 24 R350) and start the activation's budget count (03 R24). -/
def State.countIssue (s : State) (core ctx : Nat) : State :=
  let c := s.core core
  s.setCore core { c with
    regs := { c.regs with issued := c.regs.issued + 1, lastIssue := s.cycle }
    activation := c.activation.map fun a => a.start s.cycle ctx }

/-- An instruction completes in sequence, next being the pc after it: the loop test, the pc, and a ready slot. -/
def State.retireTo (s : State) (core ctx : Nat) (next : Ulm) : State :=
  let t := s.thread core ctx
  let r := seqLoop t.img.pc next t.img.loops
  s.setThread core ctx { img := { t.img with loops := r.1, pc := r.2 }, slot := t.slot.wake }

/-- The instruction that a context holds on completes. -/
def State.retireSeq (s : State) (core ctx : Nat) : State :=
  s.retireTo core ctx (s.nextPc core (s.thread core ctx).img.pc)

/-- A taken transfer of control (03 R43). -/
def State.retireJump (s : State) (core ctx : Nat) (target : Ulm) : State :=
  let t := s.thread core ctx
  s.setThread core ctx { img := { t.img with loops := leaveLoops target t.img.loops, pc := target }, slot := t.slot.wake }

/-! ## Taking a trap (23 R325) and returning (R330) -/

def Mode.code : Mode → BitVec 2
  | .user => 0#2
  | .supervisor => 1#2
  | .firmware => 2#2

/-- The mode a two-bit code names; code 11 is never held (23 R320) and reads as user. -/
def Mode.ofCode (c : BitVec 2) : Mode :=
  if c = 2#2 then .firmware else if c = 1#2 then .supervisor else .user

/-- A linear capability (04 R46) with permissions L S X A C G, over a base, a length and an offset. -/
def mkLinear (perms : BitVec 6) (base : BitVec 57) (length : BitVec 31) (offset : BitVec 32) : Quad :=
  0#2 ++ perms ++ base ++ length ++ offset

/-- `trap.stat` as trap entry writes it (23 R323): deferred, next, nest, handler, and the previous mode. -/
def mkStat (deferred next handler : Bool) (m : Mode) : BitVec 8 :=
  BitVec.ofBool deferred ++ BitVec.ofBool next ++ 1#1 ++ BitVec.ofBool handler ++ 0#2 ++ m.code

def TrapRegs.nest (r : TrapRegs) : Bool := r.stat.getLsbD 5

/-- The permissions L, S and C of a trap handler's capability. -/
def permLSC : BitVec 6 := 0b110010#6

/-- A register is read, or written in another way: it holds no window write that is still to be read (07 R97); x0 never does. -/
def Context.unwindow (c : Context) (r : Nat) : Context :=
  if r = 0 then c else { c with windowed := c.windowed &&& ~~~(1#48 <<< r) }

/-- The state of the context after trap entry; x29 has no pending producer. -/
def State.enterTrap (s : State) (core ctx : Nat) (cause : BitVec 7) (pc : Ulm) (addr : Word) (deferred next : Bool) : State :=
  let t := s.thread core ctx
  let c := s.core core
  let handler := ctx == 16
  let slot := t.slot.wake
  if Cause.cls cause = 7#3 ∨ t.img.trap.nest then
    let known := Cause.cls cause = 7#3
    let cause' := if known then cause else Cause.doubleTrap
    let regs : TrapRegs := ⟨cause', pc, addr, mkStat deferred (known && next) handler t.img.mode⟩
    let x29 : XReg := ⟨mkLinear permLSC 0x3F800#57 0x800#31 0#32, true, true⟩
    (s.setCore core { c with regs := { c.regs with fw := regs } }).setThread core ctx
      { img := ({ t.img with mode := .firmware, x := t.img.x.set 29 x29, pc := 0x3F000#18 } : Context).unwindow 29
        slot := slot }
  else
    let regs : TrapRegs := ⟨cause, pc, addr, mkStat deferred next handler t.img.mode⟩
    let base := c.regs.trapSave.toNat * 256 + ctx * 256
    let x29 : XReg := ⟨mkLinear permLSC (BitVec.ofNat 57 base) 256#31 0#32, true, true⟩
    s.setThread core ctx
      { img := ({ t.img with trap := regs, mode := .supervisor, x := t.img.x.set 29 x29,
                             pc := BitVec.ofNat 18 (c.regs.trapVec.toNat * 512 + (Cause.cls cause).toNat * 64) } :
                  Context).unwindow 29
        slot := slot }

/-- The budget count of an activation stops at trap entry (23 R326). -/
def State.pauseBudget (s : State) (core ctx : Nat) : State :=
  let c := s.core core
  match c.activation with
  | some a =>
    if ctx = 16 ∧ a.begun ∧ !a.paused then
      s.setCore core { c with activation := some { a with paused := true, spent := a.spent + (s.cycle - a.since) } }
    else s
  | none => s

/-- It resumes at ERET. -/
def State.resumeBudget (s : State) (core ctx : Nat) : State :=
  let c := s.core core
  match c.activation with
  | some a =>
    if ctx = 16 ∧ a.paused then
      s.setCore core { c with activation := some { a with paused := false, since := s.cycle } }
    else s
  | none => s

/-- Does a register have a pending producer (04 R44, R51)? WAITF is one: until a window write the register is empty. -/
def Thread.pendingX (t : Thread) (r : XName) : Bool := !(t.img.x[r.toFin]).full

/-- A context that takes a trap no longer waits for an engine (13 R270, R271): the holds it has left are gone. -/
def State.dropHolds (s : State) (core ctx : Nat) : State :=
  let g := s.stage (stageOf core)
  let mine (h : Hold) : Bool := h.core == core && h.ctx == ctx
  if g.holds.any mine then s.setStage (stageOf core) { g with holds := g.holds.filter fun h => !mine h } else s

/-- Trap entry: it first waits until x29 has no pending producer. An instruction that traps has issued (03 R24). -/
def State.takeTrap (s : State) (core ctx : Nat) (cause : BitVec 7) (pc : Ulm) (addr : Word) (deferred next : Bool) : State :=
  if !(s.thread core ctx).pendingX 29#5 then
    (((s.enterTrap core ctx cause pc addr deferred next).startCount core ctx).pauseBudget core ctx).dropHolds core ctx
  else (s.block core ctx .retry).startCount core ctx

/-- The trap of an instruction that has issued: it counts once the trap is taken (29 R416). -/
def State.raise (s : State) (core ctx : Nat) (cause : BitVec 7) (addr : Word) (next : Bool) : State :=
  let t := s.takeTrap core ctx cause (s.thread core ctx).img.pc addr false next
  if (s.thread core ctx).pendingX 29#5 then t else t.countIssue core ctx

/-- The outcomes of a step. -/
abbrev Result := Host.Outcome State Fault Refusal

/-- Set flags in the current context (05 R68). -/
def State.orFlags (s : State) (f : BitVec 5) : State := s.setImg { s.img with fpFlags := s.img.fpFlags ||| f }

/-- Execute an instruction's operation in the current context. A trap finds the state as it stood before (08 R140). -/
def finish (op : Op Next) (s : State) : Result :=
  let core := s.cur.1
  let ctx := s.cur.2
  match op s with
  | .ok (.seq, t) => .next ((t.retireTo core ctx (s.nextPc core s.img.pc)).countIssue core ctx)
  | .ok (.jump pc, t) => .next ((t.retireJump core ctx pc).countIssue core ctx)
  | .ok (.hold w, t) => .next ((t.block core ctx w).countIssue core ctx)
  | .ok (.stay, t) => .next (t.countIssue core ctx)
  | .error .wait => .next ((s.block core ctx .retry).startCount core ctx)
  | .error (.trap c a) => .next (s.raise core ctx c a false)
  | .error (.trapNext c a) => .next (s.raise core ctx c a true)
  | .error (.fp c f) => .next ((s.orFlags f).raise core ctx c (f.setWidth 64) false)
  | .error (.waitWith t w) =>
    .next (((t.setThread core ctx { t.thread core ctx with img := s.img }).block core ctx w).startCount core ctx)

/-- An instruction that always goes on in sequence. -/
def plain (op : Op Unit) : State → Result := finish (do op; pure .seq)

/-- Is a pc the end of a loop that is active? -/
def LoopStack.endsAt (l : LoopStack) (pc : Ulm) : Bool :=
  (l.depth != 0#2 && l.e0.stopPc == pc) || (l.depth == 2#2 && l.e1.stopPc == pc)

/-- A control instruction at a loop's end traps "loop end control" before anything else (03 R43, 09 R169). -/
def loopEndCheck : Op Unit := do
  let s ← get
  require (!s.img.loops.endsAt s.img.pc) Cause.loopEnd s.curWord

/-- A jump's target: bit 0 set traps "branch into instruction" and the target is not fetched (08 R126). -/
def jumpTo (t : Ulm) : Op Next := do
  require (!t.getLsbD 0) Cause.branchInto 0#64
  pure (.jump t)

/-- The current context is the handler context. -/
def inHandler : Op Bool := do return (← get).cur.2 == 16

/-- "blocking in handler" (03 R23). -/
def notInHandler : Op Unit := do
  let s ← get
  require (s.cur.2 != 16) Cause.blockingInHandler s.curWord

/-- "illegal instruction", with the aligned word (24 R343). -/
def illegal {α : Type} : Op α := do trap Cause.illegal (← get).curWord

/-- Illegal unless the test holds. -/
def legal (b : Bool) : Op Unit := if b then pure () else illegal

/-- The mode of the current context. -/
def curMode : Op Mode := do return (← get).img.mode

/-- Supervisor or firmware, or "privileged instruction" (23 R328). -/
def supervisorOnly : Op Unit := do
  let s ← get
  require (s.img.mode != .user) Cause.privileged s.curWord

/-- The previous mode that a status register holds, as its two-bit code. -/
def TrapRegs.previous (r : TrapRegs) : BitVec 2 := r.stat.extractLsb' 0 2

def TrapRegs.nextBit (r : TrapRegs) : Bool := r.stat.getLsbD 6

def TrapRegs.clearNest (r : TrapRegs) : TrapRegs := { r with stat := r.stat &&& 0xDF#8 }

/-- A context that returns to a mode: below its own, the elements its reading streams hold are discarded, so that each is
checked again in the mode that pops it (04 R54). -/
def Context.returnTo (c : Context) (m : Mode) (pc : Ulm) : Context :=
  { c with
    mode := m
    pc := pc
    gens := if m.code < c.mode.code then c.gens.map fun g => { g with fetched := [] } else c.gens }

/-- `eret` (23 R330): the loop stack is kept, and the budget count goes on once no trap handler is left (R326). -/
def eretOp : Op Next := do
  supervisorOnly
  let s ← get
  let core := s.cur.1
  let fw := s.img.mode == .firmware
  let r := if fw then (s.core core).regs.fw else s.img.trap
  require (decide (r.previous ≤ s.img.mode.code)) Cause.privileged s.curWord
  let p := if r.nextBit then s.nextPc core r.pc else r.pc
  require (!p.getLsbD 0) Cause.branchInto 0#64
  let img := s.img.returnTo (Mode.ofCode r.previous) p
  let c := s.core core
  let s := if fw then (s.setCore core { c with regs := { c.regs with fw := r.clearNest } }).setImg img
    else s.setImg { img with trap := r.clearNest }
  let s := s.setSlot s.curThread.slot.wake
  set (if s.img.trap.nest then s else s.resumeBudget core s.cur.2)
  pure .stay

/-- Post a record to a partition's error queue (24 R342), to be written by QUEUE_RECORD_WRITE; a core in no partition has
none. -/
def State.postError (s : State) (part : Option Nat) (r : CauseRecord) : State :=
  match part with
  | some p => s.push (Req.device 0 (.post p { r with time := s.time }))
  | none => s

/-- The record of a cause that concerns a core. -/
def coreRecord (cause : BitVec 7) (core : Nat) (d0 d1 : Word) : CauseRecord :=
  ⟨cause, BitVec.ofNat 14 core, 0#2, 0#11, 0#64, d0, d1⟩

/-- The deferred causes of a task that ends go to the error queue (24 R339). -/
def State.postDeferred (s : State) (core : Nat) (l : List Deferred) : State :=
  l.foldl (fun s d => s.postError (s.partOf core) (coreRecord d.cause core d.addr (d.under.setWidth 64))) s

end Sys2Proof.Machine
end

