-- ==== Sys2Proof/Machine/Format.lean ====
section
/-!
DEFINITION. Format.lean: tile formats (05 R59, R63, R64), how a tile's bytes are read as values and written from values (R65,
R69), the quantised-tile trailer (R73, R74), and the size rule of a declaration (12 R232).
-/

namespace Sys2Proof.Machine

/-! ## Sizes (05 R59, R63, R64) -/

/-- The bits of one element. -/
def elemBits (fmt : Nat) : Nat :=
  match fmt with
  | 1 => 32
  | 2 => 16
  | 3 => 16
  | 6 => 4
  | 9 => 4
  | 12 => 6
  | 13 => 6
  | 14 => 4
  | _ => 8

/-- An MX format (05 R64). -/
def isMx (fmt : Nat) : Bool := decide (10 ≤ fmt) && decide (fmt ≤ 14)

/-- A quantised format: a conversion into it writes a trailer. -/
def isQuant (fmt : Nat) : Bool := decide (4 ≤ fmt) && decide (fmt ≤ 14)

def pad16 (n : Nat) : Nat := (n + 15) / 16 * 16

/-- The bytes of b MX blocks: the packed elements, then the scales padded to 16 bytes (05 R64). -/
def mxSize (fmt b : Nat) : Nat := b * (4 * elemBits fmt) + pad16 b

/-- The number of MX blocks that a size holds exactly, if any. -/
def mxBlocks (fmt size : Nat) : Option Nat :=
  let per := 4 * elemBits fmt + 1
  (List.range 16).findSome? fun k =>
    let b := size / per - k
    if mxSize fmt b = size then some b else none

/-- The number of elements a tile of a size holds; none where no MX layout has exactly the size. -/
def elemCount (fmt size : Nat) : Option Nat :=
  if isMx fmt then (mxBlocks fmt size).map (32 * ·) else some (size * 8 / elemBits fmt)

/-- The size rule of TDECL (12 R232, step 3). -/
def sizeRule (fmt size : Nat) : Bool := if isMx fmt then (mxBlocks fmt size).isSome else size % 16 == 0

/-- The size that n elements take in a format; an MX format takes whole blocks only. -/
def sizeFor (fmt n : Nat) : Option Nat :=
  if isMx fmt then if n % 32 = 0 then some (mxSize fmt (n / 32)) else none
  else some ((n * elemBits fmt + 7) / 8)

/-! ## Reading a tile's bytes as values (05 R61, R63, R64) -/

/-- The floating-point format of an element, if it is floating-point. -/
def elemFmt (fmt : Nat) : Option Fmt :=
  match fmt with
  | 1 => some .fp32
  | 2 => some .fp16
  | 3 => some .bf16
  | 4 => some .e4m3
  | 5 => some .e5m2
  | 6 => some .e2m1
  | 10 => some .e4m3
  | 11 => some .e5m2
  | 12 => some .e2m3
  | 13 => some .e3m2
  | 14 => some .e2m1
  | _ => none

/-- The value of an element's code. -/
def elemValue (fmt code : Nat) : FVal :=
  match elemFmt fmt with
  | some f => f.unpack code
  | none => FVal.ofInt (intOfBits (elemBits fmt) (fmt != 8 && fmt != 0) code)

/-- The codes of n elements of w bits: a little-endian bit string (05 R63). -/
def codesOf (w n : Nat) (bs : List Byte) : List Nat :=
  (List.range n).map fun i =>
    natOfBytes ((bs.drop (i * w / 8)).take ((w + 14) / 8)) / 2 ^ (i * w % 8) % 2 ^ w

/-- An element under its block's E8M0 scale (05 R64). -/
def scaled (scale : Byte) (x : FVal) : FVal := if scale = 0xFF#8 then .nan false else x.scale ((scale.toNat : Int) - 127)

/-- The elements of an MX play: packed elements, and the scale bytes, one a block. -/
def mxValues (fmt : Nat) (data scales : List Byte) : List FVal :=
  (codesOf (elemBits fmt) (32 * scales.length) data).zipIdx.map fun e =>
    scaled (scales.getD (e.2 / 32) 0xFF#8) (elemValue fmt e.1)

/-- The values of a tile's elements. -/
def tileValues (fmt : Nat) (bs : List Byte) : List FVal :=
  if isMx fmt then
    let b := (mxBlocks fmt bs.length).getD 0
    mxValues fmt bs ((bs.drop (b * (4 * elemBits fmt))).take b)
  else (codesOf (elemBits fmt) (bs.length * 8 / elemBits fmt) bs).map (elemValue fmt)

/-! ## Writing values in a format (05 R65, R69) -/

/-- A list of codes of w bits as bytes. -/
def packCodes (w : Nat) (codes : List Nat) : List Byte :=
  bytesOfNat ((codes.length * w + 7) / 8) (codes.zipIdx.foldl (fun a e => a + e.1 % 2 ^ w * 2 ^ (w * e.2)) 0)

/-- A value's code in a format, in round to nearest even, and whether the saturation count of R73 counts it. `sat` is the
saturating form. DESIGN CHOICE (log 78): between integer formats whose source is no wider than the target (INT8 and UINT8,
INT4 to UINT8), which the table of R69 does not name, a value out of range becomes the nearest bound and counts as a
saturation, as for a wider source. -/
def elemCode (fmt : Nat) (sat : Bool) (x : FVal) : Nat × Bool :=
  match elemFmt fmt with
  | some f =>
    let r := f.round sat .rne x
    let hit := match x with
      | .nan _ => !f.hasNaN
      | .inf _ => match f.unpack r.1 with
        | .inf _ => false
        | _ => true
      | .num _ _ _ => r.2 &&& flagOF != 0#5
    (r.1, hit)
  | none =>
    let r := x.toInt (elemBits fmt) (fmt != 8) .rne
    (intBits (elemBits fmt) r.1, r.2.2)

/-- The exponent of the largest normal power of two of an MX element format (05 R65). -/
def mxMax (fmt : Nat) : Int :=
  match fmt with
  | 10 => 8
  | 11 => 15
  | 13 => 4
  | _ => 2

/-- floor(log2 |x|) of a number that is not zero. -/
def FVal.log2 : FVal → Option Int
  | .num _ m e => if m = 0 then none else some ((Nat.log2 m : Int) + e)
  | _ => none

/-- The largest of a list of exponents. -/
def maxExp (l : List Int) : Option Int := l.foldl (fun o x => some (o.elim x fun y => Max.max x y)) none

/-- `mx_scale` (05 R65). -/
def mxScale (fmt : Nat) (block : List FVal) : Byte :=
  if block.any fun x => match x with
    | .num _ _ _ => false
    | _ => true
  then 0xFF#8
  else
    match maxExp (block.filterMap FVal.log2) with
    | none => 0#8
    | some top => BitVec.ofInt 8 (Min.min (Max.max (top - mxMax fmt) (-127)) 127 + 127)

/-- A list in pieces of n. -/
def piecesOf {α : Type} (n : Nat) (l : List α) : List (List α) :=
  (List.range ((l.length + n - 1) / n)).map fun i => (l.drop (n * i)).take n

/-- The largest magnitude over the values that are no NaN, as FP32 rounded up (05 R73). -/
def maxMag (l : List FVal) : Nat :=
  l.foldl (fun m x => if x.isNaN then m else Max.max m (Fmt.fp32.round false .rup x.abs).1) 0

/-- A tile's data, with the maximum magnitude and the saturation count of its trailer. -/
structure Encoded where
  data : List Byte
  mag : Nat
  sat : Nat
deriving DecidableEq, Repr

/-- The codes of one MX block under its scale. Where the scale is 0xFF the spec gives the elements no value: they are free
(log 10), and no finite element of it counts as a saturation (log 78, DESIGN CHOICE). -/
def mxCodes (fmt free : Nat) (scale : Byte) (block : List FVal) : List (Nat × Bool) :=
  if scale = 0xFF#8 then
    block.zipIdx.map fun e =>
      ((Config.freeByte (free + e.2)).toNat % 2 ^ elemBits fmt, match e.1 with
        | .num _ _ _ => false
        | x => (elemCode fmt true x).2)
  else block.map fun x => elemCode fmt true (x.scale (127 - (scale.toNat : Int)))

/-- Values encoded in a format other than 0 and 15 (05 R65, R69); free is the free-value counter. MX formats take whole
blocks. -/
def encodeTile (fmt free : Nat) (l : List FVal) : Encoded :=
  if isMx fmt then
    let blocks := piecesOf 32 l
    let scales := blocks.map (mxScale fmt)
    let codes := (blocks.zip scales).zipIdx.flatMap fun e => mxCodes fmt (free + 32 * e.2) e.1.2 e.1.1
    ⟨packCodes (elemBits fmt) (codes.map Prod.fst) ++ scales ++ List.replicate (pad16 scales.length - scales.length) 0#8,
      maxMag l, (codes.filter Prod.snd).length⟩
  else
    let codes := l.map (elemCode fmt (fmt != 5))
    ⟨packCodes (elemBits fmt) (codes.map Prod.fst), maxMag l, (codes.filter Prod.snd).length⟩

/-! ## The trailer (05 R73, R74) -/

/-- Eight shifts of the reflected Castagnoli polynomial. -/
def crcBits : Nat → BitVec 32 → BitVec 32
  | 0, v => v
  | n + 1, v => crcBits n (if v.getLsbD 0 then (v >>> 1) ^^^ 0x82F63B78#32 else v >>> 1)

/-- The register of the CRC after one more byte. -/
def crcByte (c : BitVec 32) (b : Byte) : BitVec 32 := crcBits 8 (c ^^^ b.setWidth 32)

/-- CRC-32C. -/
def crc32c (bs : List Byte) : BitVec 32 := ~~~(bs.foldl crcByte 0xFFFFFFFF#32)

/-- The 16 bytes of a trailer. -/
def trailerBytes (fmt : Nat) (e : Encoded) : List Byte :=
  bytesOfNat 4 e.mag ++ bytesOfNat 4 e.sat ++ bytesOfNat 4 (crc32c e.data).toNat ++
    bytesOfNat 4 (fmt * 2 ^ 28 + (elemCount fmt e.data.length).getD 0 % 2 ^ 28)

/-- Do a tile's data agree with its trailer (05 R74)? -/
def trailerOk (fmt : Nat) (data trailer : List Byte) : Bool :=
  let last := natOfBytes ((trailer.drop 12).take 4)
  natOfBytes ((trailer.drop 8).take 4) == (crc32c data).toNat && last / 2 ^ 28 == fmt &&
    some (last % 2 ^ 28) == elemCount fmt data.length

/-! ## A copy from tile to tile (06 R95) -/

/-- What a fill brings: the data, and the trailer if one follows. -/
structure Filling where
  data : List Byte
  trailer : Option (List Byte)
deriving DecidableEq, Repr

/-- Encode values for a fill: a quantised format brings its trailer. -/
def fillingOf (fmt free : Nat) (l : List FVal) : Filling :=
  let e := encodeTile fmt free l
  ⟨e.data, if isQuant fmt then some (trailerBytes fmt e) else none⟩

/-- The bytes of a source tile as they go to a destination of a format and size, or the cause that faults it. -/
def convertTile (src : Nat) (data : List Byte) (dst size free : Nat) : Except (BitVec 7) Filling :=
  if src = dst ∨ src = 0 ∨ dst = 0 then
    if data.length = size then .ok ⟨data, none⟩ else .error Cause.tileSize
  else if src = 15 ∨ dst = 15 then .error Cause.sbpTable
  else if (elemCount src data.length).bind (sizeFor dst) ≠ some size then .error Cause.tileSize
  else .ok (fillingOf dst free (tileValues src data))

end Sys2Proof.Machine
end

