-- ==== Sys2Proof/Machine/Blocks.lean ====
section
/-!
DEFINITION. Blocks.lean: summation-by-parts blocks (05 R70 to R72) and the contribution of one group (13 R259 to R261).
-/

namespace Sys2Proof.Machine

/-! ## Blocks (05 R70 to R72) -/

/-- The bytes of a block, by the kind in its header. -/
def blockBytes (kind : Nat) : Option Nat := if kind = 4 then some 144 else if kind = 8 then some 256 else none

/-- The codes of an SBP4 block from its level counts. -/
def sbp4Codes (counts : List Byte) : List Int :=
  counts.zipIdx.flatMap fun e => List.replicate e.1.toNat ((e.2 : Int) - 8)

/-- The codes of an SBP8 block, downward from the top code: the list is rising. -/
def sbp8Codes (top : Int) (diffs : List Byte) : List Int :=
  (diffs.reverse.foldl (fun l d => (l.headD 0 - d.toNat) :: l) [top])

/-- Has a list no repeats? -/
def distinct : List Nat → Bool
  | [] => true
  | x :: l => !l.contains x && distinct l

/-- The checks of R72 on a block's bytes, and the block. -/
def decodeBlock (bs : List Byte) : Option Block :=
  let header := natOfBytes (bs.take 4)
  let kind := header % 256
  let scale : BitVec 32 := BitVec.ofNat 32 (natOfBytes ((bs.drop 4).take 4))
  let base := if kind = 4 then 0x18 else 0x88
  let perm := codesOf 7 128 ((bs.drop base).take 112)
  let zeros := natOfBytes ((bs.drop (base + 112)).take 8)
  let counts := (bs.drop 8).take 16
  let top := intOfBits 8 true (bs.getD 8 0#8).toNat
  let diffs := (bs.drop 9).take 127
  let codes := if kind = 4 then sbp4Codes counts else sbp8Codes top diffs
  let bad := if kind = 4 then decide (codes.length ≠ 128) else decide (codes.headD 0 < -128)
  if header / 256 ≠ 1 ∨ blockBytes kind ≠ some bs.length ∨ zeros ≠ 0 ∨ bad ∨ !distinct perm then none
  else some ⟨BitVec.ofNat 8 kind, scale, codes, perm⟩

/-- What a play of format 15 holds: its blocks, each sized by its own header, or why it cannot be parsed: an unknown kind
(true), or an end inside a block (13 R258). -/
def splitBlocks : Nat → List Byte → Except Bool (List (List Byte))
  | 0, _ => .ok []
  | n + 1, bs =>
    match bs with
    | [] => .ok []
    | b :: _ =>
      match blockBytes b.toNat with
      | none => .error true
      | some k => if bs.length < k then .error false else (splitBlocks n (bs.drop k)).map fun l => bs.take k :: l

/-- The whole blocks at the start of a play, before an unknown kind or an end. -/
def wholeBlocks : Nat → List Byte → Nat
  | 0, _ => 0
  | n + 1, bs =>
    match (bs.head?).bind fun b => blockBytes b.toNat with
    | none => 0
    | some k => if bs.length < k then 0 else wholeBlocks n (bs.drop k) + 1

/-- The nonnegative steps between the sorted codes, and the top code last (13 R266). -/
def Block.diffs (b : Block) : List Nat := (b.codes.zip b.codes.tail).map fun e => (e.2 - e.1).toNat

def Block.top (b : Block) : Int := b.codes.getLastD 0

/-! ## Activations in fixed point (13 R259) -/

/-- The unit's exponent for the formats with a fixed one; 0 for BF16, as R265 gives for a row that is not scanned. -/
def fixedUnit (fmt : Nat) : Int := if fmt = 4 then -9 else if fmt = 5 then -16 else 0

/-- The unit of a row's group: the window of BF16 lies below the largest magnitude. -/
def groupUnit (fmt : Nat) (a : List FVal) : Int :=
  if fmt = 3 then (maxExp (a.filterMap FVal.log2)).getD 39 - 39 else fixedUnit fmt

/-- An activation in a unit, rounded once to nearest even. -/
def FVal.inUnit (u : Int) : FVal → Int
  | .num neg m e =>
    let r := (roundShift .rne neg m (e - u)).1
    if neg then -(r : Int) else r
  | _ => 0

/-- Is every activation of a group a number? -/
def allNums (a : List FVal) : Bool := a.all fun x => match x with
  | .num _ _ _ => true
  | _ => false

/-- The running sums S_1 to S_128 over the activations in the block's order. -/
def runningSums (n : List Int) (perm : List Nat) : List Int :=
  (perm.foldl (fun (l : List Int) p => (l.headD 0 + n.getD p 0) :: l) []).reverse

/-- The exact sum of a group, by parts. -/
def groupSum (b : Block) (run : List Int) : Int :=
  (b.diffs.zip run).foldl (fun e d => e - (d.1 : Int) * d.2) (b.top * run.getLastD 0)

/-! ## One group (13 R260) -/

/-- The FP32 operations of the engines: round to nearest even, no flags. -/
def fadd32 (a b : Nat) : Nat := (Fmt.fp32.add .rne a b).1
def fmul32 (a b : Nat) : Nat := (Fmt.fp32.mul .rne a b).1
def fround32 (x : FVal) : Nat := (Fmt.fp32.round false .rne x).1

/-- `sbp_group`: the accumulator after one group; the keeper's entry is given in keeper mode. -/
def sbpGroup (fmt : Nat) (acc : Nat) (a : List FVal) (b : Block) (keeper : Option Nat) : Nat :=
  if !allNums a then fadd32 acc Fmt.fp32.nan
  else if a.all FVal.isZero then fadd32 acc 0
  else
    let u := groupUnit fmt a
    let run := runningSums (a.map (FVal.inUnit u)) b.perm
    let e := groupSum b run
    let p := fround32 (FVal.scale u (FVal.ofInt e))
    let p := fmul32 p b.scale.toNat
    let p := match keeper with
      | some k => fmul32 p k
      | none => p
    fadd32 acc p

/-- A lane's state after a pair (13 R265 to R267), from the activations of the task's last row. -/
def laneAfter (fmt g j row : Nat) (a : List FVal) (b : Block) : Lane :=
  if !allNums a ∨ a.all FVal.isZero then ⟨true, g, j, row, fixedUnit fmt, List.replicate 128 0, b.diffs, b.top⟩
  else
    let u := groupUnit fmt a
    ⟨true, g, j, row, u, runningSums (a.map (FVal.inUnit u)) b.perm, b.diffs, b.top⟩

/-! ## Promotion blocks (05 R75, R76) -/

/-- The exact sum of a block's products; none for the NaN of R76. -/
def blockSum : List (FVal × FVal) → Option FVal
  | [] => some (.num false 0 0)
  | [e] => e.1.mul e.2
  | e :: l => do
    let p ← e.1.mul e.2
    let q ← blockSum l
    p.add .rne q

/-- One block added to an accumulator, with the keeper's entry in keeper mode. -/
def addBlock (acc : Nat) (l : List (FVal × FVal)) (keeper : Option Nat) : Nat :=
  let p := match blockSum l with
    | some v => fround32 v
    | none => Fmt.fp32.nan
  let p := match keeper with
    | some k => fmul32 p k
    | none => p
  fadd32 acc p

end Sys2Proof.Machine
end

