-- ==== Sys2Proof/Machine/Cap.lean ====
section
/-!
DEFINITION. Cap.lean: capabilities (04 R46, R47), the mesh step (R48), the checks of a dereference (R49, R418), and the
checks of an access (10 R181, 06 R78, R82).
-/

namespace Sys2Proof.Machine

/-! ## Fields (04 R46, R47) -/

def Quad.kind (q : Quad) : BitVec 2 := q.extractLsb' 126 2

/-- The six permission bits L S X A C G. -/
def Quad.perms (q : Quad) : BitVec 6 := q.extractLsb' 120 6

def Quad.hasL (q : Quad) : Bool := q.getLsbD 125
def Quad.hasS (q : Quad) : Bool := q.getLsbD 124
def Quad.hasX (q : Quad) : Bool := q.getLsbD 123
def Quad.hasA (q : Quad) : Bool := q.getLsbD 122
def Quad.hasC (q : Quad) : Bool := q.getLsbD 121
def Quad.hasG (q : Quad) : Bool := q.getLsbD 120

def Quad.base (q : Quad) : BitVec 57 := q.extractLsb' 63 57
def Quad.length (q : Quad) : BitVec 31 := q.extractLsb' 32 31
def Quad.offset (q : Quad) : BitVec 32 := q.extractLsb' 0 32

/-- The cursor of a linear or sealed capability: base + offset in 57 bits. -/
def Quad.cursor (q : Quad) : BitVec 57 := Quad.base q + (Quad.offset q).setWidth 57

def Quad.setOffset (q : Quad) (o : BitVec 32) : Quad := (q.extractLsb' 32 96 : BitVec 96) ++ o

/-- The fields of a mesh capability (04 R47). -/
structure Mesh where
  perms : BitVec 6
  baseCol : BitVec 7
  baseRow : BitVec 7
  sliceBase : BitVec 18
  sliceLen : BitVec 18
  cols : BitVec 7
  rows : BitVec 7
  col : BitVec 7
  row : BitVec 7
  off : BitVec 18
deriving DecidableEq, Repr

def Mesh.ofQuad (q : Quad) : Mesh :=
  ⟨q.extractLsb' 120 6, q.extractLsb' 113 7, q.extractLsb' 106 7, q.extractLsb' 88 18, q.extractLsb' 70 18,
   q.extractLsb' 63 7, q.extractLsb' 56 7, q.extractLsb' 49 7, q.extractLsb' 42 7, q.extractLsb' 24 18⟩

def Mesh.toQuad (c : Mesh) : Quad :=
  1#2 ++ c.perms ++ c.baseCol ++ c.baseRow ++ c.sliceBase ++ c.sliceLen ++ c.cols ++ c.rows ++ c.col ++ c.row ++ c.off ++ 0#24

/-- The number of columns: a field of 0 means 128. -/
def Mesh.ncol (c : Mesh) : Nat := if c.cols = 0#7 then 128 else c.cols.toNat

/-- `mesh_step` (04 R48). -/
def meshStep (c : Mesh) (step : Int) : Mesh :=
  if c.sliceLen = 0#18 then c
  else
    let p : Int := (c.off.toNat : Int) - c.sliceBase.toNat + step
    let k := p.fdiv c.sliceLen.toNat
    let q : Int := (c.col.toNat : Int) - c.baseCol.toNat + k
    let j := q.fdiv c.ncol
    { c with
      off := BitVec.ofInt 18 (c.sliceBase.toNat + (p - k * c.sliceLen.toNat))
      col := BitVec.ofInt 7 (c.baseCol.toNat + (q - j * c.ncol))
      row := BitVec.ofInt 7 (((c.row.toNat : Int) + j).emod 128) }

/-- The cursor advanced by a step, as `cinc` and a post-increment do (09 R156, 04 R46, R48). -/
def capStep (q : Quad) (step : Int) : Quad :=
  if Quad.kind q = 1#2 then (meshStep (Mesh.ofQuad q) step).toQuad
  else Quad.setOffset q (BitVec.ofInt 32 ((Quad.offset q).toNat + step))

/-! ## The checks of a dereference (04 R49) -/

/-- The permissions an access needs, each a bit of L S X A C (08 R46 order); tags need C beside L or S. -/
structure Need where
  l : Bool
  s : Bool
  x : Bool
  a : Bool
  c : Bool
deriving DecidableEq, Repr

def needL : Need := ⟨true, false, false, false, false⟩
def needS : Need := ⟨false, true, false, false, false⟩
def needA : Need := ⟨false, false, false, true, false⟩

def Need.met (n : Need) (q : Quad) : Bool :=
  (!n.l || Quad.hasL q) && (!n.s || Quad.hasS q) && (!n.x || Quad.hasX q) && (!n.a || Quad.hasA q) && (!n.c || Quad.hasC q)

/-- Check 4 for a linear capability, the access at cursor + off for size bytes: the bytes lie inside the bounds, and inside
ULM or the map. -/
def linearBounds (q : Quad) (off : Int) (size : Nat) : Bool :=
  let o : Int := (Quad.offset q).toNat + off
  let cur : Int := (Quad.cursor q).toNat + off
  decide (0 ≤ o) && decide (o + size ≤ (Quad.length q).toNat) && decide (0 ≤ cur) &&
    decide (cur + size ≤ if Quad.hasG q then 137438953472 else 262144)

/-- Check 5 for a mesh capability. -/
def meshRange (c : Mesh) (off : Int) (size : Nat) : Bool :=
  let o : Int := c.off.toNat + off
  decide (c.baseCol.toNat ≤ c.col.toNat) && decide (c.col.toNat < c.baseCol.toNat + c.ncol) &&
    decide (c.baseRow.toNat ≤ c.row.toNat) && decide (c.row.toNat < c.baseRow.toNat + c.rows.toNat) &&
    decide ((c.sliceBase.toNat : Int) ≤ o) && decide (o + size ≤ c.sliceBase.toNat + c.sliceLen.toNat) &&
    decide (c.sliceBase.toNat + c.sliceLen.toNat ≤ 262144)

/-- The checks of R49 in order; the number of the first that fails, and its cause. -/
def derefFail (r : XReg) (n : Need) (off : Int) (size : Nat) : Option (Nat × BitVec 7) :=
  let k := Quad.kind r.val
  if !r.tag then some (1, Cause.untagged)
  else if k = 2#2 ∨ k = 3#2 then some (2, Cause.capKind)
  else if !n.met r.val then some (3, Cause.capPermission)
  else if k = 0#2 ∧ !linearBounds r.val off size then some (4, Cause.capBounds)
  else if k = 1#2 ∧ !meshRange (Mesh.ofQuad r.val) off size then some (5, Cause.meshRange)
  else none

/-- Where an access goes: the core's own ULM, or an on-chip map address. -/
inductive Target where
  | local (off : Nat)
  | map (addr : Nat)
deriving DecidableEq, Repr

/-- The target of an access that has passed R49. -/
def capTarget (q : Quad) (off : Int) : Target :=
  if Quad.kind q = 1#2 then
    let c := Mesh.ofQuad q
    .map ((c.row.toNat * 128 + c.col.toNat) * 1048576 + ((c.off.toNat : Int) + off).toNat)
  else
    let a := (((Quad.cursor q).toNat : Int) + off).toNat
    if Quad.hasG q then .map a else .local a

/-- R49 as an operation; the address recorded is the access's offset from the cursor (24 R341). -/
def derefCheck (r : XReg) (n : Need) (off : Int) (size : Nat) : Op Unit :=
  match derefFail r n off size with
  | some (_, c) => trap c (BitVec.ofInt 64 off)
  | none => pure ()

/-! ## The checks of an access through the map (06 R80, R82) -/

/-- The windows of the map (06 R79, R80, 12 R256). -/
inductive Window where
  | ulm (core off : Nat)
  | xreg (core slot reg byte : Nat)
  | vreg (core slot reg byte : Nat)
  | tiles (core off : Nat)
  | control (core off : Nat)
  | engine (stage unit off : Nat)
  | hole
deriving DecidableEq, Repr

/-- The offsets of an engine window that a rule defines (12 R256, 15 R299, 25 R354, R360, 26 R376, R379, R380, 28 R396,
R401, 29 R414, R416). -/
def engineDefined (unit off : Nat) : Bool :=
  if unit ≤ 3 then
    decide (off < 0x40000) ||
      (decide (0x400000 ≤ off) && decide (off < 0x401000) )
  else if unit = 5 then
    decide (0x100000 ≤ off) && decide (off < 0x102000) && decide ((off - 0x100000) % 32 < 24)
  else if unit = 6 then
    decide (off < 0x68) || (decide (0x100 ≤ off) && decide (off < 0x188)) ||
      (decide (0x200 ≤ off) && decide (off < 0x210)) || (decide (0x300 ≤ off) && decide (off < 0x338))
  else false

/-- Is an engine-window offset privileged? Accumulators and the counts of 29 R414 are not. -/
def enginePrivileged (unit off : Nat) : Bool :=
  if unit ≤ 3 then decide (0x400000 ≤ off)
  else if unit = 6 then !(decide (0x200 ≤ off) && decide (off < 0x210))
  else true

/-- The control-register numbers a core's control block holds: the per-core ones (23 R322, 29 R416). -/
def coreCsr (n : Nat) : Bool :=
  [0x002, 0x003, 0x004, 0x008, 0x009, 0x00A, 0x00B, 0x00C, 0x00D, 0x00E, 0x00F, 0x010, 0x024, 0x025, 0x030, 0x060,
   0x070, 0x071, 0x072, 0x073, 0x080, 0x081, 0x082, 0x083].contains n

/-- The dwords that a run of bytes touches, by number. -/
def dwordsOf (off size : Nat) : List Nat := (List.range ((off + size - 1) / 8 + 1 - off / 8)).map (off / 8 + ·)

/-- Does the pair name a core of this part: one that no fuse takes away (01 R10, 29 R413)? -/
def Grade.hasCore (g : Grade) (pair : Nat) : Bool := isCore pair && !g.noStage.contains (stageOf pair)

/-- The window a map address falls in, or a hole (06 R79, R80); size is the access's. Fused-off units name nothing (29 R413). -/
def windowOf (g : Grade) (addr size : Nat) : Window :=
  if addr ≥ 137438953472 then .hole
  else if addr / 68719476736 % 2 = 0 then
    let core := addr / 1048576 % 16384
    let off := addr % 1048576
    if addr / 17179869184 % 4 ≠ 0 ∨ !g.hasCore core then .hole
    else if off < 0x40000 then if off + size ≤ 0x40000 then .ulm core off else .hole
    else if 0x80000 ≤ off ∧ off < 0x90000 then
      let o := off % 4096
      let slot := (off - 0x80000) / 4096
      if o + size ≤ 512 then .xreg core slot (o / 16) (o % 16)
      else if 0x400 ≤ o ∧ o + size ≤ 0x800 then .vreg core slot ((o - 0x400) / 64) ((o - 0x400) % 64)
      else .hole
    else if 0xC0000 ≤ off ∧ off + size ≤ 0xC0200 then .tiles core (off - 0xC0000)
    else if 0xE0000 ≤ off ∧ (dwordsOf (off - 0xE0000) size).all coreCsr then .control core (off - 0xE0000)
    else .hole
  else
    let die := addr / 8589934592 % 4
    let row := addr / 1073741824 % 8
    let col := addr / 134217728 % 8
    let unit := addr / 16777216 % 8
    let st := die * 40 + row * 8 + col
    let off := addr % 16777216
    if addr / 34359738368 % 2 ≠ 0 ∨ row ≥ 5 ∨ unit = 7 ∨ g.noStage.contains st ∨
      (unit < 4 ∧ g.noEngine.contains (st * 4 + unit)) then .hole
    else if (dwordsOf off size).all fun d => engineDefined unit (d * 8) then .engine st unit off
    else .hole

/-- The core or stage a window belongs to. -/
def Window.stage : Window → Option Nat
  | .ulm c _ | .xreg c _ _ _ | .vreg c _ _ _ | .tiles c _ | .control c _ => some (stageOf c)
  | .engine st _ _ => some st
  | .hole => none

/-- The checks of R82 in order, without the alignment check, which vector bytes do not have (11 R226). -/
def mapChecks (addr size : Nat) : Op Unit := do
  let s ← get
  let a : Word := BitVec.ofNat 64 addr
  let w := windowOf s.grade addr size
  require (w != .hole) Cause.mapAddress a
  let user := s.img.mode == .user
  match w with
  | .control _ o => do
    require (!user) Cause.mapPrivilege a
    match (dwordsOf o size).find? fun n => decide (0x70 ≤ n) && decide (n ≤ 0x73) with
    | some n => require (s.img.mode == .firmware) Cause.csrPrivilege (BitVec.ofNat 64 n)
    | none => pure ()
  | .engine _ u o => require (!(user && enginePrivileged u o)) Cause.mapPrivilege a
  | .ulm _ o => require (!(user && decide (o + size > 0x38000))) Cause.wings (BitVec.ofNat 64 o)
  | _ => pure ()
  match w.stage with
  | some st => require (s.sameStage s.cur.1 st) Cause.partitionBoundary a
  | none => pure ()

/-- R82 whole: natural alignment first. -/
def mapCheck (addr size : Nat) : Op Unit := do
  require (addr % size == 0) Cause.misalignedMap (BitVec.ofNat 64 addr)
  mapChecks addr size

/-- Do the bounds of a capability lie wholly within the payload buffer, 0x3F700 to 0x3F7FF (06 R78)? -/
def inPayload (q : Quad) : Bool :=
  decide (0x3F700 ≤ (Quad.base q).toNat) && decide ((Quad.base q).toNat + (Quad.length q).toNat ≤ 0x3F800)

/-- The wings check of a local access (10 R181 check 3). A load alone may use the payload exception. -/
def wingsCheck (q : Quad) (load : Bool) (off size : Nat) : Op Unit := do
  let s ← get
  let local' := Quad.kind q == 0#2 && !Quad.hasG q
  let exempt := load && local' && !Quad.hasS q && inPayload q
  require (!(s.img.mode == .user && decide (off + size > 0x38000)) || exempt) Cause.wings (BitVec.ofNat 64 off)

/-- The ULM offset that checks 2 and 3 of R181 look at: the address within the core's window. -/
def Target.ulmOff : Target → Nat
  | .local off => off
  | .map addr => addr % 1048576

/-- The address that cursor + offset names: a ULM offset, or for a mesh capability the map address on its cursor's core. -/
def Target.addr : Target → Nat
  | .local off => off
  | .map addr => addr

/-- The checks of R181 in order, for n bytes at cursor + off, aligned to align; the target on success. -/
def accessCheck (r : XReg) (need : Need) (off : Int) (n align : Nat) : Op Target := do
  derefCheck r need off n
  let t := capTarget r.val off
  let linearG := Quad.kind r.val == 0#2 && Quad.hasG r.val
  if linearG then
    match t with
    | .map a =>
      if align == n then mapCheck a n
      else do
        require (a % align == 0) Cause.misalignedMap (BitVec.ofNat 64 a)
        mapChecks a n
    | .local _ => pure ()
  else do
    let a := t.ulmOff
    require (a % align == 0) Cause.misaligned (BitVec.ofNat 64 t.addr)
    wingsCheck r.val need.l a n
    match t with
    | .map m => do
      -- a mesh access still goes through its core's window: rows, holes and the partition (06 R82)
      let s ← get
      let w := windowOf s.grade m n
      require (w != .hole) Cause.mapAddress (BitVec.ofNat 64 m)
      match w.stage with
      | some st => require (s.sameStage s.cur.1 st) Cause.partitionBoundary (BitVec.ofNat 64 m)
      | none => pure ()
    | .local _ => pure ()
  pure t

/-! ## Dwords of a write, and bank formats (06 R93) -/

/-- The dword that bytes with gaps make, over the value that the register reads as; and over zero. -/
def mergeWord (old : Word) (bs : List (Option Byte)) : Word :=
  BitVec.ofNat 64 (natOfBytes ((bytesOfNat 8 old.toNat).zip (bs ++ List.replicate 8 none) |>.map fun e => e.2.getD e.1))

/-- The dwords, by number, into which a write of bytes with gaps falls, each with the bytes of it that are written. -/
def dwordParts (off : Nat) (bs : List (Option Byte)) : List (Nat × List (Option Byte)) :=
  (dwordsOf off bs.length).filterMap fun d =>
    let o := d * 8
    let part := if o < off then List.replicate (off - o) none ++ bs.take (o + 8 - off) else (bs.drop (o - off)).take 8
    if part.all Option.isNone then none else some (d, part)

/-- `bank.fmt` of a bank; that of bank 7 reads as 0. -/
def Core.bank (c : Core) (b : Nat) : BitVec 4 := if b = 7 then 0#4 else Assoc.get 0#4 c.bankFmt b

/-- Have tiles of a format a trailer (05 R73)? -/
def hasTrailer (f : BitVec 4) : Bool := decide (4 ≤ f.toNat) && decide (f.toNat ≤ 14)

/-- The bytes a tile takes from its base on: its data, and for formats 4 to 14 the 16 of its trailer (12 R232). -/
def Tile.room (t : Tile) : Nat := t.size.toNat + if hasTrailer t.format then 16 else 0

/-- Does a tile that is not empty lie in a bank (06 R77)? -/
def Core.bankBusy (c : Core) (b : Nat) : Bool :=
  c.tiles.any fun t => t.2.state != 0#2 && decide (t.2.base.toNat < (b + 1) * 32768) &&
    decide (b * 32768 < t.2.base.toNat + t.2.room)

/-- May a write give a bank's register a format? -/
def Core.bankMay (c : Core) (b : Nat) (v : BitVec 4) : Bool := b == 7 || v == c.bank b || !c.bankBusy b

/-- The first bank whose format a write to a core's control block may not change. -/
def Core.bankRefused (c : Core) (off : Nat) (bs : List (Option Byte)) : Option Nat :=
  ((dwordParts off bs).find? fun d => decide (0x008 ≤ d.1) && decide (d.1 ≤ 0x00F) &&
    !c.bankMay (d.1 - 8) ((mergeWord ((c.bank (d.1 - 8)).setWidth 64) d.2).setWidth 4)).map fun d => d.1 - 8

/-- A map store that would change the format of a bank in which a tile is not empty traps "tile format"; the bank is named
(24 R347). -/
def requireBank (a : Nat) (bs : List (Option Byte)) : Op Unit := do
  let s ← get
  match windowOf s.grade a bs.length with
  | .control core off =>
    match (s.core core).bankRefused off bs with
    | some b => trap Cause.tileFormat (BitVec.ofNat 64 b)
    | none => pure ()
  | _ => pure ()

/-- An operand that must be linear with G = 0 (04 R418): untagged, or another kind or G = 1, is refused first. -/
def requireLocal (r : XReg) (off : Int) : Op Unit := do
  require r.tag Cause.untagged (BitVec.ofInt 64 off)
  require (Quad.kind r.val == 0#2 && !Quad.hasG r.val) Cause.capKind (BitVec.ofInt 64 off)

end Sys2Proof.Machine
end

