-- ==== Sys2Proof/Machine/Operands.lean ====
section
/-!
DEFINITION. Operands.lean: how an instruction reads its sources and writes its destination: wait bits and full bits (04 R51,
R52), the stream registers (R54), the order that fences and one location impose (07 R101, R103), and the vector and mask
registers (04 R55).
-/

namespace Sys2Proof.Machine

/-- 1 for true, 0 for false. -/
def boolWord (b : Bool) : Word := if b then 1#64 else 0#64

/-! ## Order among the task's own events (07 R101, R103) -/

/-- The bit of a class in a fence set (10 R192). -/
def Cls.bit : Cls → Nat
  | .r => 0
  | .w => 1
  | .q => 2
  | .m => 3
  | .a => 4

/-- The requests that the fences in force whose set Q passes a test make an event follow. -/
def State.fencesOn (s : State) (p : BitVec 5 → Bool) : List Nat :=
  (s.curThread.slot.fences.filter fun f => p f.q).flatMap fun f => f.waits.filter s.inFlight

/-- The requests that a fence in force makes an event of this class follow. -/
def State.fenceWaits (s : State) (c : Cls) : List Nat := s.fencesOn fun q => q.getLsbD c.bit

/-- The map bytes a request of a task reads or writes. -/
def Body.extent : Body → Option (Nat × Nat)
  | .read a n _ _ => some (a, n)
  | .write a bs _ _ _ => some (a, bs.length)
  | .patch a bs _ _ => some (a, bs.length)
  | .atomic x => if x.phys.isNone then some (x.addr, x.bytes) else none
  | _ => none

/-- What a request is for (07 R97): the number of its own access with the map bytes it touches, and the number of the store of
the element that its value is reserved for, with that element's (04 R54). -/
def Req.accesses (r : Req) : List (Nat × Nat × Nat) :=
  (r.body.extent.map fun e => (r.id, e)).toList ++ (r.body.element.map fun e => (e.id, e.addr, e.size)).toList

def overlap (a n b m : Nat) : Bool := decide (a < b + m) && decide (b < a + n)

/-- Is a request in flight the current task's? -/
def State.isMine (s : State) (r : Req) : Bool :=
  r.core == s.cur.1 && r.ctx == s.cur.2 && r.epoch == s.curThread.slot.epoch

/-- The task's accesses in flight that touch any of n bytes at a map address. -/
def State.sameLocation (s : State) (a n : Nat) : List Nat :=
  (s.reqs.filter s.isMine).flatMap fun r => (r.accesses.filter fun e => overlap a n e.2.1 e.2.2).map Prod.fst

/-- The accesses of a request to the own ULM by local offsets: an atomic's, and a late append's. -/
def Req.near (r : Req) : List Nat :=
  (match r.body with
    | .atomic a => if a.near then [r.id] else []
    | _ => []) ++ ((r.body.element.filter Element.near).map Element.id).toList

/-- The task's accesses to its own ULM by local offsets that are in flight: atomics and late appends. -/
def State.nearEvents (s : State) : List Nat := (s.reqs.filter s.isMine).flatMap Req.near

/-- A store to n bytes at a map address, with a number of its own or still to issue, is held while a gather that issued before it
is still to read its index list there: such a store is not seen (10 R188). -/
def State.listHeld (s : State) (a n : Nat) (id : Option Nat) : Bool :=
  (s.core (a / 1048576)).queues.dq.any fun e =>
    e.2.kind == .gather && !e.2.started && id.all (fun i => decide (e.2.id < i)) &&
      overlap a n (ulmAddr (a / 1048576) e.2.list) (e.2.len / 2 ^ e.2.exp * 4)

/-- An event of the task that is performed at once waits at issue until the fences allow it. -/
def awaitFences (c : Cls) : Op Unit := do await (((← get).fenceWaits c).isEmpty)

/-- A local access is performed in program order (07 R102), after the task's earlier accesses to the bytes (R103). -/
def awaitLocal (c : Cls) (off n : Nat) : Op Unit := do
  awaitFences c
  let s ← get
  let a := ulmAddr s.cur.1 off
  await (s.nearEvents.isEmpty && (s.sameLocation a n).isEmpty && !(decide (c = .w) && s.listHeld a n none))

/-- A register read that consumes a window write is an r event (07 R97). -/
def Context.isWindowed (c : Context) (r : Nat) : Bool := r != 0 && c.windowed.getLsbD r

def awaitWindowed (r : Nat) : Op Unit := do
  if (← get).img.isWindowed r then awaitFences .r

/-- Put a request of the current task in flight, after those named. -/
def pushAfter (c : Option Cls) (place : Place) (after : List Nat) (body : Body) : Op Nat := do
  let s ← get
  set (s.push ⟨0, s.cur.1, s.cur.2, s.curThread.slot.epoch, c, place, after, body⟩)
  pure s.nextId

/-- Put a request of the current task in flight, after those named and those that the fences in force name. -/
def pushReq (c : Option Cls) (place : Place) (after : List Nat) (body : Body) : Op Nat := do
  let s ← get
  let waits := match c with
    | some c => s.fenceWaits c
    | none => []
  pushAfter c place (after ++ waits) body

/-- Where a map address lies, for the scopes of fences. -/
def placeOf (addr : Nat) : Place :=
  if addr / 68719476736 % 2 = 0 then .core (addr / 1048576 % 16384)
  else .stage (addr / 8589934592 % 4 * 40 + addr / 1073741824 % 8 * 8 + addr / 134217728 % 8)

/-- A piece after a later write to n bytes at an address. -/
def PubPiece.touch (p : PubPiece) (addr n : Nat) : PubPiece := { p with later := p.later || overlap p.addr p.len addr n }

/-- A later write of the core's tasks suppresses the re-publication of the bytes it touches (07 R112). -/
def State.suppress (s : State) (core addr n : Nat) : State :=
  let q := (s.core core).queues
  s.setQueues core { q with pubs := q.pubs.map fun e => { e with pieces := e.pieces.map fun p => p.touch addr n } }

/-- A map access of the task: after the fences, its earlier accesses to the same bytes, and the requests named. -/
def pushMap (c : Cls) (addr n : Nat) (after : List Nat) (body : Body) : Op Nat := do
  let s ← get
  if c = .w ∨ c = .a then set (s.suppress s.cur.1 addr n)
  pushReq (some c) (placeOf addr) (s.sameLocation addr n ++ after) body

/-! ## Scoped stores (07 R112) -/

/-- The fence sets named by a scope: does the instance of the scope at a core hold a place? -/
def Scope.holds (sc : Scope) (core : Nat) : Place → Bool
  | .core p =>
    match sc with
    | .core => p == core
    | .stage => stageOf p == stageOf core
    | .die => dieOf p == dieOf core
    | _ => true
  | .stage st =>
    match sc with
    | .core => false
    | .stage => st == stageOf core
    | .die => dieOfStage st == dieOf core
    | _ => true
  | .die d =>
    match sc with
    | .core => false
    | .stage => false
    | .die => d == dieOf core
    | _ => true
  | .package =>
    match sc with
    | .package => true
    | .system => true
    | _ => false
  | .system => sc == .system

/-- May the task's next store issue: it carries no scope, or one of the 16 publication entries is free? -/
def State.mayPublish (s : State) : Bool :=
  s.curThread.slot.storeScope.isNone || decide ((s.core s.cur.1).queues.pubs.length < 16)

/-- A store to the own ULM is performed within every scope as it issues: its entry is free again at once. -/
def awaitRoom : Op Unit := do await (← get).mayPublish

/-- A map store takes a publication entry when it carries a scope; it waits while the 16 entries are in use. -/
def publish : Op (Option Nat) := do
  awaitRoom
  let s ← get
  match s.curThread.slot.storeScope with
  | none => pure none
  | some sc => do
    let c := s.core s.cur.1
    let id := s.nextId
    set { s.setQueues s.cur.1 { c.queues with pubs := c.queues.pubs ++ [⟨id, sc, []⟩] } with nextId := id + 1 }
    pure (some id)

/-- A write through the map; what it may do to a control register depends on whether firmware issued it (23 R322). -/
def State.writeBody (s : State) (addr : Nat) (bs : List Byte) (tag : Bool) (pub : Option Nat) : Body :=
  .write addr bs tag pub (s.img.mode == .firmware)

/-- Record that a request is a piece of a publication entry. -/
def State.addPiece (s : State) (core : Nat) (pub : Option Nat) (id addr n : Nat) : State :=
  match pub with
  | none => s
  | some p =>
    let q := (s.core core).queues
    s.setQueues core { q with pubs := q.pubs.map fun e =>
      if e.id == p then { e with pieces := e.pieces ++ [⟨id, addr, n, false, none⟩] } else e }

def publishPiece (pub : Option Nat) (id addr n : Nat) : Op Unit := do
  let s ← get
  set (s.addPiece s.cur.1 pub id addr n)

/-- An entry without a piece; it is gone when no piece is left. -/
def Pub.end (pub id : Nat) (e : Pub) : Option Pub :=
  let left := e.pieces.filter fun p => p.id != id
  if e.id ≠ pub then some e else if left.isEmpty then none else some { e with pieces := left }

/-- A piece is done with; its entry frees when no piece is left. -/
def State.endPiece (s : State) (core pub id : Nat) : State :=
  let q := (s.core core).queues
  s.setQueues core { q with pubs := q.pubs.filterMap (Pub.end pub id) }

/-- One map store of one single-copy atomic piece, after the requests named; its number. -/
def pushStore (pub : Option Nat) (addr : Nat) (bs : List Byte) (tag : Bool) (after : List Nat) : Op Nat := do
  requireBank addr (bs.map some)
  let id ← pushMap .w addr bs.length after ((← get).writeBody addr bs tag pub)
  publishPiece pub id addr bs.length
  pure id

/-! ## Stream generators (04 R54, 10 R184) -/

/-- The element size of a generator in bytes. -/
def Gen.size (g : Gen) : Nat := 2 ^ g.esize.toNat

/-- The x register a generator serves. -/
def Gen.xreg (g : Gen) : XName := BitVec.ofNat 5 (24 + g.reg.toNat)

/-- The generator that serves an x register, if one does. -/
def Context.genOf (c : Context) (r : XName) : Option (Fin 4) :=
  (List.finRange 4).find? fun i => (c.gens[i]).bound && (c.gens[i]).xreg == r

/-- The generator's capability with its cursor at an element; the first lies at the captured cursor (10 R184). -/
def Gen.at (g : Gen) (pos : BitVec 32) : XReg := ⟨if pos = 0#32 then g.cap else capStep g.cap pos.toNat, g.tag, true⟩

/-- The checks of one element (04 R54): past the end of the walk, bounds and range become "stream end". -/
def elementCheck (g : Gen) (pos : BitVec 32) : Op Target := fun s =>
  match accessCheck (g.at pos) (if g.append then needS else needL) 0 g.size g.size s with
  | .error (.trap c a) =>
    if (c = Cause.capBounds ∨ c = Cause.meshRange) ∧ pos ≠ 0#32 then .error (.trap Cause.streamEnd (g.xreg.setWidth 64))
    else .error (.trap c a)
  | r => r

/-- The elements an appending generator accepts before the first is performed: what SSTAT's ready field can count (10 R186). -/
def Gen.room : Nat := 7

def setGen (i : Fin 4) (g : Gen) : Op Unit := do
  let s ← get
  set (s.setImg { s.img with gens := s.img.gens.set i g })

/-- Append the low bytes of a value at the next element. -/
def appendElement (i : Fin 4) (v : Quad) : Op Unit := do
  let g := (← get).img.gens[i]
  let t ← elementCheck g g.pos
  await (decide (g.pending.length < Gen.room))
  let bs := bytesOfNat g.size v.toNat
  match t with
  | .local off => do
    awaitRoom
    awaitLocal .w off g.size
    let s ← get
    set (s.writeBytes (ulmAddr s.cur.1 off) bs)
    setGen i { g with pos := g.pos + BitVec.ofNat 32 g.size }
  | .map a => do
    let id ← pushStore (← publish) a bs false []
    let h := (← get).img.gens[i]
    setGen i { h with pos := h.pos + BitVec.ofNat 32 h.size, pending := h.pending ++ [id] }

/-! ## Sources (04 R52, R54) -/

/-- A source is ready: full, or a stream with an element; otherwise its wait bit decides. -/
def sourceReady (a : Src) : Op Unit := do
  let img := (← get).img
  let empty : Op Unit := if a.mark then trap Cause.emptyOperand (a.reg.setWidth 64) else stop .wait
  match img.genOf a.reg with
  | some i => do
    let g := img.gens[i]
    require (!g.append) Cause.streamDirection (a.reg.setWidth 64)
    if g.fetched.isEmpty then do
      let _ ← elementCheck g g.pos
      empty
  | none => if a.reg = 0#5 ∨ (img.x[a.reg.toFin]).full then awaitWindowed a.reg.toNat else empty

/-- The value of a ready source: a stream's element is zero-extended and untagged; x0 reads as untagged zero. -/
def Context.sourceVal (c : Context) (r : XName) : XReg :=
  match c.genOf r with
  | some i => ⟨BitVec.ofNat 128 ((c.gens[i]).fetched.headD 0), false, true⟩
  | none => if r = 0#5 then XReg.zero else c.x[r.toFin]

/-- Pop one element of the reading stream bound to a register; a window write that the read consumes is marked read. -/
def popStream (r : XName) : Op Unit := do
  let s ← get
  let img := s.img
  match img.genOf r with
  | some i => do
    let g := img.gens[i]
    setGen i { g with fetched := g.fetched.tail, pos := g.pos + BitVec.ofNat 32 g.size }
  | none => if img.isWindowed r.toNat then set (s.setImg (img.unwindow r.toNat)) else pure ()

/-- Read one source. -/
def readSrc (a : Src) : Op XReg := do
  sourceReady a
  let v := (← get).img.sourceVal a.reg
  popStream a.reg
  pure v

/-- Read two sources; one element is popped however many fields name the register. -/
def readSrc2 (a b : Src) : Op (XReg × XReg) := do
  sourceReady a
  sourceReady b
  let img := (← get).img
  popStream a.reg
  if a.reg ≠ b.reg then popStream b.reg
  pure (img.sourceVal a.reg, img.sourceVal b.reg)

/-- Read a register without a wait bit and two sources (10 R187, R188), one element for each register that they name. -/
def readSrc3 (d : XName) (a b : Src) : Op (XReg × XReg × XReg) := do
  sourceReady ⟨d, false⟩
  sourceReady a
  sourceReady b
  let img := (← get).img
  popStream d
  if a.reg ≠ d then popStream a.reg
  if b.reg ≠ d ∧ b.reg ≠ a.reg then popStream b.reg
  pure (img.sourceVal d, img.sourceVal a.reg, img.sourceVal b.reg)

/-- A destination that is also read (09 R142): bound, it traps "stream direction"; empty, it waits. -/
def readDest (d : XName) : Op XReg := do
  let img := (← get).img
  require (img.genOf d).isNone Cause.streamDirection (d.setWidth 64)
  await (d == 0#5 || (img.x[d.toFin]).full)
  awaitWindowed d.toNat
  pure (img.sourceVal d)

/-! ## Destinations (04 R44, R52, R54) -/

/-- A destination is ready at issue: not empty, and not bound to a reading generator. -/
def destReady (d : XName) : Op Unit := do
  let img := (← get).img
  match img.genOf d with
  | some i => require (img.gens[i]).append Cause.streamDirection (d.setWidth 64)
  | none => await (d == 0#5 || (img.x[d.toFin]).full)

/-- Write a whole x register, tagged or not. -/
def setX (d : XName) (v : Quad) (tag : Bool) : Op Unit := do
  let s ← get
  if d = 0#5 then pure ()
  else set (s.setImg (({ s.img with x := s.img.x.set d.toFin ⟨v, tag, true⟩ } : Context).unwindow d.toNat))

/-- Write a destination: a bound appending stream takes the low bytes. -/
def writeX (d : XName) (v : Quad) (tag : Bool) : Op Unit := do
  match (← get).img.genOf d with
  | some i => appendElement i v
  | none => setX d v tag

/-- `x(d) := v` of 08 R140 for a 64-bit result: untagged, full, upper bits zero. -/
def writeWord (d : XName) (v : Word) : Op Unit := writeX d (v.setWidth 128) false

/-- Mark a destination empty at issue (04 R51); x0 is never marked. -/
def markEmpty (d : XName) : Op Unit := do
  let s ← get
  if d = 0#5 then pure ()
  else set (s.setImg
    (({ s.img with x := s.img.x.set d.toFin { s.img.x[d.toFin] with full := false } } : Context).unwindow d.toNat))

/-- The next element of an appending generator is reserved for a late value, once there is room for it (04 R54). -/
def reserve (i : Fin 4) (bytes : Nat) (signed quad : Bool) : Op Dest := do
  let g := (← get).img.gens[i]
  let t ← elementCheck g g.pos
  await (decide (g.pending.length < Gen.room))
  let pub ← match t with
    | .local _ => do
      awaitRoom
      pure none
    | .map _ => publish
  let s ← get
  let (near, addr) := match t with
    | .local off => (true, ulmAddr s.cur.1 off)
    | .map a => (false, a)
  setGen i { g with pos := g.pos + BitVec.ofNat 32 g.size, pending := g.pending ++ [s.nextId] }
  set { (← get) with nextId := s.nextId + 1 }
  pure (.append ⟨i.val, addr, near, g.size, bytes, signed, quad, pub, s.nextId,
    s.fenceWaits .w ++ s.sameLocation addr g.size ++ (if near then s.nearEvents else [])⟩)

/-- Where a late value for d goes, with d marked empty or the next stream element reserved (04 R54). -/
def lateDest (d : XName) (bytes : Nat) (signed quad : Bool) : Op Dest := do
  if d = 0#5 then pure .none
  else
    match (← get).img.genOf d with
    | some i => reserve i bytes signed quad
    | none => do
      markEmpty d
      pure (.x d bytes signed quad)

/-- A register that a window write is to fill (04 R51): it is marked empty, or where it is bound to an appending generator the
write fills the element that is reserved (R54). Of `sender`, only that core's write does so. -/
def awaitWindow (d : XName) (sender : Option Nat) : Op Unit := do
  match (← get).img.genOf d with
  | some i => do
    let dst ← reserve i 16 false true
    let s ← get
    let _ ← pushAfter none (.core s.cur.1) [] (.awaited d.toNat sender dst)
    pure ()
  | none => markEmpty d

/-! ## Vector and mask registers (04 R55) -/

/-- A vector source is full; otherwise the instruction's wait bit decides. -/
def vecReady (v : VName) (mark : Bool) : Op Unit := do
  let img := (← get).img
  if (img.v[v.toFin]).full then awaitWindowed (32 + v.toNat)
  else if mark then trap Cause.emptyOperand (BitVec.ofNat 64 (32 + v.toNat))
  else stop .wait

/-- Read a vector source; a window write that the read consumes is marked read. -/
def readVec (v : VName) (mark : Bool) : Op Vec := do
  vecReady v mark
  let s ← get
  if s.img.isWindowed (32 + v.toNat) then set (s.setImg (s.img.unwindow (32 + v.toNat)))
  return (s.img.v[v.toFin]).val

/-- A vector destination waits while it is empty (04 R52); its old value. -/
def destVec (d : VName) : Op Vec := do
  let img := (← get).img
  await (img.v[d.toFin]).full
  awaitWindowed (32 + d.toNat)
  return (img.v[d.toFin]).val

/-- Write a vector register; one that a window has written is as good as read then. -/
def writeVec (d : VName) (v : Vec) : Op Unit := do
  let s ← get
  set (s.setImg (({ s.img with v := s.img.v.set d.toFin ⟨v, true⟩ } : Context).unwindow (32 + d.toNat)))

def markVec (d : VName) : Op Unit := do
  let s ← get
  set (s.setImg
    (({ s.img with v := s.img.v.set d.toFin { s.img.v[d.toFin] with full := false } } : Context).unwindow (32 + d.toNat)))

/-- A mask register: m0 reads as all ones. -/
def Context.mask (c : Context) (k : MName) : Word :=
  if k = 0#3 then BitVec.allOnes 64 else c.m[k.toFin]

/-- Write a mask register: m0 ignores writes. -/
def writeMask (k : MName) (v : Word) : Op Unit := do
  let s ← get
  if k = 0#3 then pure ()
  else set (s.setImg { s.img with m := s.img.m.set k.toFin v })

end Sys2Proof.Machine
end

