-- ==== Sys2Proof/Machine/Image.lean ====
section
/-!
DEFINITION. Image.lean: the image of a slot in the wings (23 R327), and where a slot's registers stand while it is not
resident (03 R28, R29).
-/

namespace Sys2Proof.Machine

/-- The map address of a slot's image (03 R28). -/
def imageAddr (core slot : Nat) : Nat := ulmAddr core (0x38000 + slot * 0x700)

/-- A number whose bit i is the i-th of a list of Booleans. -/
def bitsOf : List Bool → Nat
  | [] => 0
  | b :: bs => b.toNat + 2 * bitsOf bs

/-- The full bit of a register: of a bound one, whether its generator has an element ready, or room for one (04 R54). -/
def Context.fullBit (c : Context) (r : Fin 32) : Bool :=
  match c.genOf (BitVec.ofFin r) with
  | some i => if (c.gens[i]).append then decide ((c.gens[i]).pending.length < Gen.room) else !(c.gens[i]).fetched.isEmpty
  | none => (c.x[r]).full

/-- The 1,792 bytes of an image. -/
def encodeImage (c : Context) : List Byte :=
  let b (n v : Nat) := bytesOfNat n v
  let xs := c.x.toList
  let loop (e : LoopEntry) := b 8 e.count.toNat ++ b 4 e.start.toNat ++ b 4 e.stop.toNat
  let gen (g : Gen) := b 8 (if g.bound then
      2 ^ 63 + g.append.toNat * 2 ^ 62 + g.esize.toNat * 2 ^ 60 + g.reg.toNat * 2 ^ 58 + g.tag.toNat * 2 ^ 57 + g.pos.toNat
    else 0)
  (b 16 0 ++ xs.tail.flatMap fun r => b 16 r.val.toNat) ++ (c.v.toList.flatMap fun r => b 64 r.val.toNat) ++
    (c.m.toList.tail.flatMap fun m => b 8 m.toNat) ++
    b 4 (bitsOf (false :: xs.tail.map XReg.tag)) ++ b 4 (bitsOf (true :: (List.finRange 32).tail.map c.fullBit)) ++
    b 8 (bitsOf (c.v.toList.map VReg.full) + c.pc.toNat * 65536) ++
    b 8 (c.fpCtrl.toNat + c.fpFlags.toNat * 2 ^ 32) ++
    b 8 (if c.inlineValid then c.inlinePc.toNat + 2 ^ 63 else 0) ++
    b 8 (c.loops.depth.toNat + c.mode.code.toNat * 256) ++
    loop c.loops.e0 ++ loop c.loops.e1 ++
    (c.gens.toList.flatMap gen) ++ (c.gens.toList.flatMap fun g => b 16 (if g.bound then g.cap.toNat else 0)) ++
    b 8 c.trap.cause.toNat ++ b 8 c.trap.pc.toNat ++ b 8 c.trap.addr.toNat ++ b 8 c.trap.stat.toNat

/-- The bits of a register that an image gives: the reserved field of a mesh capability reads zero (04 R47, 00 R6). -/
def capWord (q : Quad) (tag : Bool) : Quad := if tag ∧ Quad.kind q = 1#2 then q &&& ~~~0xFFFFFF#128 else q

/-- The context an image holds; a depth of 3, which no stack has, reads as 2. -/
def decodeImage (s : State) (a : Nat) : Context :=
  let n (off len : Nat) := s.readNat (a + off) len
  let tags := n 0x638 4
  let full := n 0x63C 4
  let w := n 0x640 8
  let f := n 0x648 8
  let r := n 0x650 8
  let l := n 0x658 8
  let loop (e : Nat) : LoopEntry :=
    ⟨BitVec.ofNat 17 (n (0x668 + 16 * e) 4), BitVec.ofNat 17 (n (0x66C + 16 * e) 4), BitVec.ofNat 32 (n (0x660 + 16 * e) 8)⟩
  let gen (g : Nat) : Gen :=
    let q := n (0x680 + 8 * g) 8
    if q.testBit 63 then
      ⟨true, q.testBit 62, BitVec.ofNat 2 (q >>> 60), BitVec.ofNat 2 (q >>> 58), capWord (BitVec.ofNat 128 (n (0x6A0 + 16 * g) 16)) (q.testBit 57),
        q.testBit 57, BitVec.ofNat 32 q, [], []⟩
    else Gen.free
  { pc := BitVec.ofNat 18 (w >>> 16)
    x := Vector.ofFn fun i : Fin 32 =>
      if i.val = 0 then XReg.zero else ⟨capWord (BitVec.ofNat 128 (n (16 * i.val) 16)) (tags.testBit i.val), tags.testBit i.val, full.testBit i.val⟩
    v := Vector.ofFn fun i : Fin 16 => ⟨BitVec.ofNat 512 (n (0x200 + 64 * i.val) 64), w.testBit i.val⟩
    m := Vector.ofFn fun i : Fin 8 => if i.val = 0 then 0#64 else BitVec.ofNat 64 (n (0x600 + 8 * (i.val - 1)) 8)
    loops := ⟨if l % 4 = 3 then 2#2 else BitVec.ofNat 2 l, loop 0, loop 1⟩
    fpCtrl := BitVec.ofNat 13 f &&& 0x1F07#13
    fpFlags := BitVec.ofNat 5 (f >>> 32)
    inlinePc := BitVec.ofNat 18 r
    inlineValid := r.testBit 63
    mode := Mode.ofCode (BitVec.ofNat 2 (l >>> 8))
    trap := ⟨BitVec.ofNat 7 (n 0x6E0 8), BitVec.ofNat 18 (n 0x6E8 8), BitVec.ofNat 64 (n 0x6F0 8), BitVec.ofNat 8 (n 0x6F8 8) &&& 0xF3#8⟩
    gens := Vector.ofFn fun i : Fin 4 => gen i.val
    windowed := 0#48 }

/-- The bits of each dword from 0x640 on that the layout names (23 R327). -/
def imageNamed : List (Nat × Nat) :=
  [(0x640, 0x3FFFFFFFF), (0x648, 0x1F00001F07), (0x650, 0x800000000003FFFF), (0x658, 0x303),
   (0x660, 0xFFFFFFFF), (0x668, 0x1FFFF0001FFFF), (0x670, 0xFFFFFFFF), (0x678, 0x1FFFF0001FFFF),
   (0x680, 0xFE000000FFFFFFFF), (0x688, 0xFE000000FFFFFFFF), (0x690, 0xFE000000FFFFFFFF), (0x698, 0xFE000000FFFFFFFF),
   (0x6E0, 0x7F), (0x6E8, 0x3FFFF), (0x6F8, 0xF3)]

/-- The offset of the first dword of an image with a reserved bit set, if any; a depth or mode code of 11 counts as one. -/
def imageFault (s : State) (a : Nat) : Option Nat :=
  (imageNamed.find? fun e =>
    let v := s.readNat (a + e.1) 8
    (v &&& (2 ^ 64 - 1 - e.2)) != 0 || (e.1 == 0x658 && (v % 4 == 3 || v / 256 % 4 == 3))).map Prod.fst

/-- Is a context's current copy the one in the state's own registers, and not the image in the wings (03 R29)? -/
def Slot.inCore (v : Slot) (ctx : Nat) : Bool := ctx == 16 || v.resident || (v.status == .free && !v.held)

/-- A context's registers, wherever they stand; the core itself keeps which of them a window has written. -/
def State.liveImg (s : State) (core ctx : Nat) : Context :=
  let t := s.thread core ctx
  if t.slot.inCore ctx then t.img else { decodeImage s (imageAddr core ctx) with windowed := t.img.windowed }

/-- Write a context's registers where they stand. -/
def State.setLiveImg (s : State) (core ctx : Nat) (c : Context) : State :=
  let t := s.thread core ctx
  let s := s.setThread core ctx { t with img := c }
  if t.slot.inCore ctx then s else s.writeBytes (imageAddr core ctx) (encodeImage c)

/-- The context with its current registers in the core, as it issues. -/
def State.loadLive (s : State) (core ctx : Nat) : State :=
  s.setThread core ctx { s.thread core ctx with img := s.liveImg core ctx }

/-- Apply an operation on a context to its registers wherever they stand. -/
def State.live (s : State) (core ctx : Nat) (f : State → State) : State :=
  if (s.thread core ctx).slot.inCore ctx then f s
  else
    let t := f (s.loadLive core ctx)
    t.writeBytes (imageAddr core ctx) (encodeImage (t.thread core ctx).img)

/-- The wait of a slot that is saved has ended; its image is left as it is (23 R333). -/
def Slot.end (v : Slot) : Slot := { v with status := .ready, wait := .over }

/-- The instruction that a context holds on completes; that of a slot that is saved, at CTXLD. -/
def State.retireHeld (s : State) (core ctx : Nat) : State :=
  let t := s.thread core ctx
  if t.slot.saved then s.setThread core ctx { t with slot := t.slot.end } else s.live core ctx fun t => t.retireSeq core ctx

/-- The instruction that a context holds on traps. -/
def State.trapHeld (s : State) (core ctx : Nat) (cause : BitVec 7) (addr : Word) : State :=
  s.live core ctx fun t => t.takeTrap core ctx cause (t.thread core ctx).img.pc addr false false

/-- Stream a resident context out: its fetched stream elements are discarded (03 R30). -/
def State.streamOut (s : State) (core ctx : Nat) : State :=
  let t := s.thread core ctx
  let c := { t.img with gens := t.img.gens.map fun g => { g with fetched := [] } }
  (s.setThread core ctx { img := c, slot := { t.slot with resident := false } }).writeBytes (imageAddr core ctx)
    (encodeImage c)

/-- Stream a context in. -/
def State.streamIn (s : State) (core ctx : Nat) : State :=
  let c := s.liveImg core ctx
  let t := s.thread core ctx
  s.setThread core ctx { img := c, slot := { t.slot with resident := true, residentAt := s.cycle, since := s.cycle } }

/-- Have a context's appending generators completed the stores of every element written (03 R30)? -/
def Context.appended (c : Context) : Bool := c.gens.toList.all fun g => !g.append || g.pending.isEmpty

/-- The number of resident slots, and of those being brought in. -/
def State.residents (s : State) (core : Nat) : Nat :=
  ((List.range 16).filter fun k => (s.thread core k).slot.resident).length +
    (if (s.core core).swap.isSome then 1 else 0)

/-- Is a slot held: by CTXSV (23 R333), or from step 2 on of a pre-emption of its partition (R335)? -/
def State.slotHeld (s : State) (core k : Nat) : Bool :=
  (s.thread core k).slot.held || decide (2 ≤ (s.stage (stageOf core)).halted)

/-- The slots that could be brought in, in cyclic order after the one swapped in last (03 R31). -/
def State.readyOut (s : State) (core : Nat) : Option Nat :=
  ((List.range 16).map fun k => ((s.core core).lastIn + 1 + k) % 16).find? fun k =>
    let v := (s.thread core k).slot
    v.status == .ready && !v.resident && !s.slotHeld core k && (s.core core).swap.all fun w => w.into != k

/-- Start a swap: the outgoing slot streams to the wings, and the incoming one is brought in (03 R31). -/
def State.startSwap (s : State) (core : Nat) (out : Option Nat) (into : Nat) : State :=
  let s := match out with
    | some k => s.streamOut core k
    | none => s
  s.setCore core { s.core core with swap := some ⟨out, into⟩, lastIn := into }

/-- Bring the incoming slot of a swap in. -/
def State.endSwap (s : State) (core : Nat) : State :=
  match (s.core core).swap with
  | none => s
  | some w =>
    let s := s.setCore core { s.core core with swap := none }
    let v := (s.thread core w.into).slot
    if v.status == .free || s.slotHeld core w.into || v.resident then s else s.streamIn core w.into

/-- Free a slot (09 R171): its registers read as untagged zero, and values still on their way to it are discarded. -/
def Thread.freed (t : Thread) : Thread :=
  ⟨Context.zero, { Slot.free with held := t.slot.held, saved := t.slot.saved, epoch := t.slot.epoch + 1 }⟩

/-- A thread starts in a free slot (03 R28): resident at once while a shadow context is free, else in the wings. -/
def State.startThread (s : State) (core ctx : Nat) (c : Context) (kernel : Option Nat) : State :=
  let t := s.thread core ctx
  let slot := { t.freed.slot with status := .ready, kernel := kernel }
  if s.residents core < 2 ∧ !s.slotHeld core ctx then
    s.setThread core ctx ⟨c, { slot with resident := true, residentAt := s.cycle }⟩
  else (s.setThread core ctx ⟨c, slot⟩).writeBytes (imageAddr core ctx) (encodeImage c)

end Sys2Proof.Machine
end

