-- ==== Sys2Proof/Machine/Deliver.lean ====
section
/-!
DEFINITION. Deliver.lean: values that arrive for registers (03 R29, 04 R51, R53, 10 R178), and what an arrival wakes.
-/

namespace Sys2Proof.Machine

/-- Is the task that issued a request still the occupant of its context (10 R178)? -/
def State.present (s : State) (r : Req) : Bool :=
  let v := (s.thread r.core r.ctx).slot
  v.status != .free && v.epoch == r.epoch

/-- Register r has been written, by a register window or in another way (07 R97). -/
def Context.noteWindow (c : Context) (r : Nat) (window : Bool) : Context :=
  if window then { c with windowed := c.windowed ||| (1#48 <<< r) } else c.unwindow r

/-- Write an x register where it stands; it becomes full. -/
def State.pokeX (s : State) (core ctx : Nat) (r : XName) (v : Quad) (tag window : Bool) : State :=
  if r = 0#5 then s
  else
    let t := s.thread core ctx
    let c := t.img.noteWindow r.toNat window
    if t.slot.inCore ctx then
      s.setThread core ctx { t with img := { c with x := c.x.set r.toFin ⟨v, tag, true⟩ } }
    else
      let s := s.setThread core ctx { t with img := c }
      let a := imageAddr core ctx
      let k := 2 ^ r.toNat
      let tags := s.readNat (a + 0x638) 4
      let full := s.readNat (a + 0x63C) 4
      let s := s.writeBytes (a + 16 * r.toNat) (bytesOfNat 16 v.toNat)
      let s := s.writeBytes (a + 0x638) (bytesOfNat 4 (if tag then tags ||| k else tags &&& (2 ^ 32 - 1 - k)))
      s.writeBytes (a + 0x63C) (bytesOfNat 4 (full ||| k))

/-- Write bytes of a vector register where it stands; full says whether it becomes full. -/
def State.pokeV (s : State) (core ctx : Nat) (r : VName) (v : Vec) (full window : Bool) : State :=
  let t := s.thread core ctx
  let c := t.img.noteWindow (32 + r.toNat) window
  if t.slot.inCore ctx then
    let f := full || (t.img.v[r.toFin]).full
    s.setThread core ctx { t with img := { c with v := c.v.set r.toFin ⟨v, f⟩ } }
  else
    let s := s.setThread core ctx { t with img := c }
    let a := imageAddr core ctx
    let s := s.writeBytes (a + 0x200 + 64 * r.toNat) (bytesOfNat 64 v.toNat)
    if full then s.writeBytes (a + 0x640) (bytesOfNat 8 (s.readNat (a + 0x640) 8 ||| 2 ^ r.toNat)) else s

/-- Replace n bytes of a number at byte i. -/
def putBytes (v i n x : Nat) : Nat :=
  v / 2 ^ (8 * (i + n)) * 2 ^ (8 * (i + n)) + (x % 2 ^ (8 * n)) * 2 ^ (8 * i) + v % 2 ^ (8 * i)

/-- The value a load of n bytes gives its register (10 R177). -/
def loadValue (n : Nat) (signed quad : Bool) (bs : List Byte) : Quad :=
  let v := natOfBytes bs
  if quad then BitVec.ofNat 128 v
  else if signed then (BitVec.signExtend 64 (BitVec.ofNat (8 * n) v)).setWidth 128
  else (BitVec.ofNat 64 v).setWidth 128

/-- The request that a late value is on its way with: does it belong to a group of vector pieces? -/
def Body.vecGroup : Body → Option Nat
  | .read _ _ _ (.v _ g _) => some g
  | .reply (.v _ g _) _ _ => some g
  | _ => none

/-- Has the value of a request returned? -/
def Req.isReply (r : Req) : Bool :=
  match r.body with
  | .reply _ _ _ => true
  | _ => false

/-- Is a request a write that is still to be performed? -/
def Body.isWrite : Body → Bool
  | .write _ _ _ _ _ => true
  | .patch _ _ _ _ => true
  | _ => false

/-- The store of a number is performed: it leaves the pending elements of a context's generators. -/
def Context.unpend (c : Context) (id : Nat) : Context :=
  { c with gens := c.gens.map fun g => { g with pending := g.pending.filter fun i => i != id } }

def State.unpend (s : State) (core ctx id : Nat) : State :=
  let t := s.thread core ctx
  s.setThread core ctx { t with img := t.img.unpend id }

/-- The bytes that a late value leaves in its element: the low ones of the value as its producer gives it. -/
def Element.bytesOf (e : Element) (bs : List Byte) : List Byte :=
  bytesOfNat e.size (loadValue e.bytes e.signed e.quad bs).toNat

/-- May a value be delivered now? One for an element of the own ULM is stored in program order (07 R102, R103). -/
def State.mayDeliver (s : State) (dst : Dest) : Bool :=
  match dst with
  | .append e => !e.near || ((e.after.all fun i => !s.inFlight i) && !s.listHeld e.addr e.size (some e.id))
  | _ => true

/-- Store a late value at its reserved element (04 R54), under the number the store was given at issue; the address was checked
then. -/
def State.storeElement (s : State) (r : Req) (e : Element) (bs : List Byte) : State :=
  if e.near then (s.writeBytes e.addr (e.bytesOf bs)).unpend r.core r.ctx e.id
  else
    let fw := (s.thread r.core r.ctx).img.mode == .firmware
    let s := s.suppress r.core e.addr e.size
    let w : Req := ⟨e.id, r.core, r.ctx, r.epoch, some .w, placeOf e.addr, e.after, .write e.addr (e.bytesOf bs) false e.pub fw⟩
    let s : State := { s with reqs := s.reqs ++ [w] }
    s.addPiece r.core e.pub e.id e.addr e.size

/-- A value arrives for a destination. The request is no longer in flight. -/
def State.deliver (s : State) (r : Req) (dst : Dest) (bs : List Byte) (tag : Bool) : State :=
  let s := s.drop r.id
  if !s.present r then
    match dst with
    | .append e =>
      match e.pub with
      | some p => s.endPiece r.core p 0
      | none => s
    | _ => s
  else
    match dst with
    | .none => s
    | .x d n signed quad => s.pokeX r.core r.ctx d (loadValue n signed quad bs) (quad && tag) false
    | .v d g pieces =>
      let old := ((s.liveImg r.core r.ctx).v[d.toFin]).val.toNat
      let new := pieces.foldl (fun v p => putBytes v p.2.1 p.2.2 (natOfBytes ((bs.drop p.1).take p.2.2))) old
      let last := !s.reqs.any fun q => q.body.vecGroup == some g
      s.pokeV r.core r.ctx d (BitVec.ofNat 512 new) last false
    | .append e => s.storeElement r e bs

/-- A 64-bit word arrives for an x register. -/
def State.deliverWord (s : State) (r : Req) (d : XName) (v : Word) : State :=
  s.deliver r (.x d 8 false false) (bytesOfNat 8 v.toNat) false

/-- Exceptions that an atomic raised are ORed into the flags of a context, wherever its registers stand (10 R198). -/
def State.landFlags (s : State) (core ctx : Nat) (f : BitVec 5) : State :=
  let t := s.thread core ctx
  if t.slot.inCore ctx then s.setThread core ctx { t with img := { t.img with fpFlags := t.img.fpFlags ||| f } }
  else
    let a := imageAddr core ctx + 0x64C
    s.writeBytes a (bytesOfNat 4 (s.readNat a 4 ||| f.toNat))

/-- A deferred cause for a context: taken at an instruction boundary (23 R324). -/
def State.defer (s : State) (core ctx : Nat) (d : Deferred) : State :=
  let t := s.thread core ctx
  s.setThread core ctx { t with slot := { t.slot with deferred := t.slot.deferred ++ [d] } }

/-- What ends WFI (23 R331): a message, a counter or a window write wakes it, and the instruction completes. -/
def State.wfiWake (s : State) (core : Nat) (hit : Nat → Bool) : State :=
  (List.range 16).foldl (fun s k =>
    let v := (s.thread core k).slot
    if v.status = .blocked ∧ v.wait = .event ∧ hit k then s.retireHeld core k else s) s

/-- A CWAIT whose test holds after a change of its counter completes (10 R191). -/
def State.counterWake (s : State) (core n : Nat) : State :=
  (List.range 17).foldl (fun s k =>
    let t := s.thread core k
    match t.slot.status, t.slot.wait with
    | .blocked, .counter c v =>
      if c = n ∧ v ≤ ((s.core core).counter n).value.toNat then s.retireHeld core k else s
    | _, _ => s) s

/-- A counter changes (04 R56). -/
def State.putCounter (s : State) (core n : Nat) (c : Counter) : State :=
  ((s.setCounter core n c).counterWake core n).wfiWake core fun _ => true

/-- A message that a counter or an atomic triggers (03 R25): the sender field names no core. It enters the inbox of its core. -/
def triggerMsg (cls : BitVec 8) (w0 w1 : BitVec 32) : Msg := ⟨cls, 0x3FFF#14, [w0, w1], false⟩

/-- A core's interface counts a message it sends, and one it receives (26 R378). -/
def State.sent (s : State) (core : Nat) : State :=
  let r := (s.core core).regs
  s.setRegs core { r with netCount := r.netCount + 1 }

/-- A message of the dispatch front end, which no interface has sent, is received: it is not counted (log 63). -/
def State.noticed (s : State) (core : Nat) : State :=
  let r := (s.core core).regs
  s.setRegs core { r with netGot := r.netGot + 1 }

def State.received (s : State) (core : Nat) : State :=
  let r := (s.core core).regs
  s.setRegs core { r with netCount := r.netCount - 1, netGot := r.netGot + 1 }

/-- A message that the device sends through a core's interface. -/
def State.unitMessage (s : State) (src target : Nat) (m : Msg) : State :=
  (s.sent src).push { Req.device src (.message target m none) with place := .core target }

def State.pushTrigger (s : State) (core : Nat) (cls : BitVec 8) (w0 w1 : BitVec 32) : State :=
  s.unitMessage core core (triggerMsg cls w0 w1)

/-- Add a step to a counter; a nonzero step that makes it exactly 0 fires its trigger (03 R25, 10 R191). -/
def State.addCounter (s : State) (core n : Nat) (step : BitVec 32) : State :=
  let c := (s.core core).counter n
  let v := c.value + step
  let s := s.putCounter core n { c with value := v }
  if step ≠ 0#32 ∧ v = 0#32 ∧ c.trigger ≠ 0#8 then s.pushTrigger core c.trigger (BitVec.ofNat 32 n) 0#32 else s

/-- A unit of a stage bumps a counter: the bump travels as a message from the interface that its stage's units report through
(06 R86, 26 R378), and is received in the same step. -/
def State.unitBump (s : State) (st core n times : Nat) : State :=
  ((s.sent (coreAt st 0 0)).received core).addCounter core n (BitVec.ofNat 32 times)

/-- A bump on its way to a counter (06 R86): of the issuer's own core at once, else as a message. -/
def State.bump (s : State) (src core n times : Nat) : State :=
  if times = 0 then s
  else if src = core then s.addCounter core n (BitVec.ofNat 32 times)
  else (s.sent src).push { Req.device src (.bump core n times) with place := .core core }

/-- The replies that a task leaves behind when it ends (10 R178). -/
def State.oweReplies (s : State) (core slot : Nat) (replies : List (Nat × Nat)) : State :=
  let c := s.core core
  s.setCore core { c with owed := c.owed ++ replies.map fun e => (slot * 32 + e.1, e.2) }

/-- The reserved element of a bound register that a window write from a core fills: the oldest that waits for it (04 R54). -/
def State.awaitedBy (s : State) (core slot reg : Nat) (src : Option Nat) : Option Req :=
  s.reqs.find? fun r => r.core == core && r.ctx == slot && s.present r &&
    match r.body with
    | .awaited d sender _ => d == reg && (sender.isNone || sender == src)
    | _ => false

/-- Write a value of at most 16 bytes through a register window (04 R53, 06 R81); `src` is the core that sends it, if one does. A
write to a register of a free slot is discarded (09 R171), and so is a reply to a task that has ended (10 R178, log 31). -/
def State.windowX (s : State) (src : Option Nat) (core slot reg byte : Nat) (bs : List Byte) : State :=
  match src.filter fun c => (s.core core).owed.contains (slot * 32 + reg, c) with
  | some c => s.setCore core { s.core core with owed := (s.core core).owed.erase (slot * 32 + reg, c) }
  | none =>
    let d : XName := BitVec.ofNat 5 reg
    let c := s.liveImg core slot
    if reg = 0 ∨ (s.thread core slot).slot.status = .free then s
    else if (c.genOf d).isSome then
      match s.awaitedBy core slot reg src with
      | some r =>
        match r.body with
        | .awaited _ _ dst =>
          (s.deliver r dst (bytesOfNat 16 (putBytes 0 byte bs.length (natOfBytes bs))) false).wfiWake core fun k => k == slot
        | _ => s
      | none => s
    else
      let v := putBytes (c.x[d.toFin]).val.toNat byte bs.length (natOfBytes bs)
      let s := s.pokeX core slot d (BitVec.ofNat 128 v) false true
      let t := s.thread core slot
      let s := s.setThread core slot { t with slot := { t.slot with
        replies := (src.map fun c => t.slot.replies.erase (reg, c)).getD t.slot.replies } }
      s.wfiWake core fun k => k == slot

def State.windowV (s : State) (core slot reg byte : Nat) (bs : List Byte) : State :=
  if (s.thread core slot).slot.status = .free then s
  else
    let d : VName := BitVec.ofNat 4 reg
    let v := putBytes ((s.liveImg core slot).v[d.toFin]).val.toNat byte bs.length (natOfBytes bs)
    (s.pokeV core slot d (BitVec.ofNat 512 v) true true).wfiWake core fun k => k == slot

/-! ## Compression between interfaces (27 R393) -/

/-- A payload word as it travels: an index into the dictionary, or whole. -/
inductive Code where
  | index (i : BitVec 3)
  | word (w : BitVec 32)
deriving DecidableEq, Repr

/-- The words of a dictionary after a word has been used or has entered: the most recent first, the least recent replaced. -/
def freshen (l : List (BitVec 32)) (w : BitVec 32) : List (BitVec 32) := (w :: l.filter (· != w)).take 8

/-- A payload encoded against a dictionary's words. -/
def encodeWords : List (BitVec 32) → List (BitVec 32) → List Code
  | _, [] => []
  | l, w :: ws =>
    (match l.findIdx? (· == w) with
      | some i => .index (BitVec.ofNat 3 i)
      | none => .word w) :: encodeWords (freshen l w) ws

/-- A payload decoded against a mirror's words. -/
def decodeWords : List (BitVec 32) → List Code → List (BitVec 32)
  | _, [] => []
  | l, c :: cs =>
    let w := match c with
      | .index i => l.getD i.toNat 0#32
      | .word w => w
    w :: decodeWords (freshen l w) cs

/-- A dictionary after a payload. -/
def Dict.touch (d : Dict) (ws : List (BitVec 32)) : Dict := { d with words := ws.foldl freshen d.words }

/-- The dictionaries with one put in front, as the most recently used; at most sixteen. -/
def useDict (l : List Dict) (d : Dict) : List Dict := (d :: l.filter fun e => e.partner != d.partner).take 16

/-- A receiver drops its least recently used mirror: its reset notice drops the sender's dictionary for it. -/
def State.dropMirror (s : State) (core : Nat) : State :=
  match (s.core core).dicts.2.getLast? with
  | some d =>
    let b := s.core core
    let s := s.setCore core { b with dicts := (b.dicts.1, b.dicts.2.dropLast) }
    let a := s.core d.partner
    s.setCore d.partner { a with dicts := (a.dicts.1.filter (fun e => e.partner != core), a.dicts.2) }
  | none => s

/-- A payload that must carry the reset mark travels uncompressed, and starts the dictionary and its mirror anew. -/
def State.resetDict (s : State) (src dst : Nat) (ws : List (BitVec 32)) : State :=
  let full : Bool := !((s.core dst).dicts.2.any fun d => d.partner == src) && decide (16 ≤ (s.core dst).dicts.2.length)
  let s := if full then s.dropMirror dst else s
  let a := s.core src
  let s := s.setCore src { a with dicts := (useDict a.dicts.1 (Dict.touch ⟨dst, []⟩ ws), a.dicts.2) }
  let b := s.core dst
  s.setCore dst { b with dicts := (b.dicts.1, useDict b.dicts.2 (Dict.touch ⟨src, []⟩ ws)) }

/-- A payload travels from one core's interface to another's: against a dictionary whose mirror stands, compressed; one
refused for want of its mirror is sent again with the reset mark. The words that arrive are those sent. -/
def State.compress (s : State) (src dst : Nat) (ws : List (BitVec 32)) : State :=
  let a := s.core src
  match a.dicts.1.find? (fun d => d.partner == dst), (s.core dst).dicts.2.find? (fun d => d.partner == src) with
  | some d, some m =>
    if decodeWords m.words (encodeWords d.words ws) = ws then
      let s := s.setCore src { a with dicts := (useDict a.dicts.1 (d.touch ws), a.dicts.2) }
      let b := s.core dst
      s.setCore dst { b with dicts := (b.dicts.1, useDict b.dicts.2 (m.touch ws)) }
    else s.resetDict src dst ws
  | _, _ => s.resetDict src dst ws

/-- The 32-bit words that hold a run of bytes, the last filled up with zeros. -/
def payloadWords : List Byte → List (BitVec 32)
  | b0 :: b1 :: b2 :: b3 :: bs => (b3 ++ b2 ++ b1 ++ b0) :: payloadWords bs
  | [] => []
  | bs => [BitVec.ofNat 32 (natOfBytes bs)]

/-- A payload travels between two cores' interfaces; what stays on a core passes none. -/
def State.travel (s : State) (src dst : Nat) (ws : List (BitVec 32)) : State :=
  if src = dst ∨ !isCore src ∨ !isCore dst then s else s.compress src dst ws

/-- The bytes of a map write or a reply travel between two cores' interfaces. -/
def State.carry (s : State) (src : Nat) (place : Place) (back : Bool) (bs : List Byte) : State :=
  match place with
  | .core dst => if back then s.travel dst src (payloadWords bs) else s.travel src dst (payloadWords bs)
  | _ => s

/-- A core's interface receives a message with its payload (26 R378, 27 R393). -/
def State.receive (s : State) (src core : Nat) (ws : List (BitVec 32)) : State := (s.received core).travel src core ws

end Sys2Proof.Machine
end

