-- ==== Sys2Proof/Machine/Window.lean ====
section
/-!
DEFINITION. Window.lean: what the windows of the on-chip map read (06 R79 to R81), the control registers that exist once a
core (23 R322), and the registers of the engine windows (12 R256 and the rules it names).
-/

namespace Sys2Proof.Machine

/-! ## Control registers of a core (23 R322, 29 R416) -/

/-- `trap.cause` or `fw.cause` as a word; likewise the other trap registers, by 0 to 3. -/
def TrapRegs.word (r : TrapRegs) (i : Nat) : Word :=
  match i with
  | 0 => r.cause.setWidth 64
  | 1 => r.pc.setWidth 64
  | 2 => r.addr
  | _ => r.stat.setWidth 64

/-- The word of `dq.fault` (06 R88). -/
def CoreQueues.dqWord (q : CoreQueues) : Word :=
  match q.dqFault with
  | some f => f.offset ++ 0#16 ++ f.cause ++ f.entry ++ 0#4 ++ BitVec.ofBool q.dqValid
  | none => 0#64

/-- A bank's register written (06 R93); that of bank 7 is RO. -/
def State.setBank (s : State) (core b : Nat) (v : BitVec 4) : State :=
  if b = 7 then s
  else
    let c := s.core core
    s.setCore core { c with bankFmt := Assoc.put 0#4 c.bankFmt b v }

/-- The word a per-core control register reads as. -/
def State.coreCsrWord (s : State) (core n : Nat) : Word :=
  let c := s.core core
  match n with
  | 0x002 => s.time
  | 0x003 => BitVec.ofNat 64 core
  | 0x004 => (s.stage (stageOf core)).decGen.setWidth 64
  | 0x010 => c.regs.hndBudget.setWidth 64
  | 0x024 => (c.regs.trapVec ++ 0#9).setWidth 64
  | 0x025 => (c.regs.trapSave ++ 0#8).setWidth 64
  | 0x030 => c.queues.dqWord
  | 0x060 => c.regs.preStat.setWidth 64
  | 0x070 => c.regs.fw.word 0
  | 0x071 => c.regs.fw.word 1
  | 0x072 => c.regs.fw.word 2
  | 0x073 => c.regs.fw.word 3
  | 0x080 => c.regs.snapTime
  | 0x081 => c.regs.snapPc0
  | 0x082 => c.regs.snapPc1
  | 0x083 => c.regs.snapIssue
  | n => if 0x008 ≤ n ∧ n ≤ 0x00F then (c.bank (n - 8)).setWidth 64 else 0#64

/-! ## Engine windows -/

/-- An accumulator element (12 R256). -/
def Engine.accAt (e : Engine) (i : Nat) : BitVec 32 := Assoc.get 0#32 e.acc i

/-- An entry of a keeper channel. -/
def Channel.entry (c : Channel) (i : Nat) : BitVec 32 := Assoc.get Channel.unwritten c.entries i

def Stage.channel (g : Stage) (c : Nat) : Channel := Assoc.get Channel.reset g.channels c

def Stage.travCtx (g : Stage) (v : Nat) : TravCtx := Assoc.get TravCtx.reset g.trav v

/-- Is engine e of a stage present (29 R413)? -/
def Grade.hasEngine (g : Grade) (st e : Nat) : Bool := !g.noStage.contains st && !g.noEngine.contains (st * 4 + e)

/-- The stages present. -/
def Grade.stages (g : Grade) : List Nat := (List.range 160).filter fun st => !g.noStage.contains st

/-- `dev.count` (29 R414). -/
def State.devCount (s : State) : Word :=
  let g := s.grade
  let engines := (g.stages.map fun st => ((List.range 4).filter fun e => g.hasEngine st e).length).foldl (· + ·) 0
  g.code ++ BitVec.ofNat 6 g.hostLanes ++ BitVec.ofNat 4 g.peerLanes ++ BitVec.ofNat 3 (g.groups.headD []).length ++
    BitVec.ofNat 5 (16 - g.noRaster.length) ++ BitVec.ofNat 10 engines ++ BitVec.ofNat 8 g.stages.length ++
    s.service.boot.lastStart ++ 0#18

/-- The size in bytes of a ring (28 R396), from its base register's [60:57]. -/
def ringBytes (base : BitVec 61) : Nat := 2 ^ ((base.extractLsb' 57 4).toNat + 9)

/-- A ring's base address: the bits below its byte size read as zero. -/
def ringBase (base : BitVec 61) : Nat := (base.setWidth 57).toNat / ringBytes base * ringBytes base

/-- `errq.base` or `pgq.base` as it reads. -/
def ringWord (base : BitVec 61) : Word := 0#3 ++ base.extractLsb' 57 4 ++ BitVec.ofNat 57 (ringBase base)

/-- A register of the tile scheduler's window, at an offset that is a multiple of 8. -/
def State.schedWord (s : State) (st off : Nat) : Word :=
  let g := s.stage st
  let d := s.die (dieOfStage st)
  let p := (s.partOfStage st).map s.part |>.getD Partition.absent
  match off with
  | 0x00 => g.keeper.setWidth 64
  | 0x08 => g.translation.setWidth 64
  | 0x20 => d.didt.setWidth 64
  | 0x28 => d.engRamp.setWidth 64
  | 0x30 => 0#16 ++ p.transit ++ p.hold ++ 0#15 ++ BitVec.ofBool p.modeSet
  | 0x38 => 0#60 ++ p.state ++ 0#2
  | 0x40 => (p.saveBase.setWidth 64) &&& 0x1FFFFFFFFFF0000#64
  | 0x48 => ringWord p.errBase
  | 0x50 => p.errPtr.setWidth 64
  | 0x58 => ringWord p.pgBase
  | 0x60 => p.pgPtr.setWidth 64
  | 0x200 => s.devCount
  | 0x208 => BitVec.ofNat 64 (((List.range 4).filter fun e => s.grade.hasEngine st e).foldl (fun a e => a + 2 ^ e) 0)
  | off =>
    if 0x100 ≤ off ∧ off < 0x188 then
      let l := s.link ((off - 0x100) / 8)
      l.replays ++ 0#16 ++ l.lanes ++ 0#6 ++ l.state
    else if 0x300 ≤ off ∧ off < 0x338 then Assoc.get 0#64 g.snaps ((off - 0x300) / 8)
    else 0#64

/-- The dword of an engine window at an offset that is a multiple of 8. -/
def State.engineWord (s : State) (st unit off : Nat) : Word :=
  let g := s.stage st
  if unit ≤ 3 then
    if off < 0x40000 then
      let e := g.engine unit
      e.accAt (off / 4 + 1) ++ e.accAt (off / 4)
    else
      let i := (off - 0x400000) / 4
      let c := g.channel (i / 256)
      c.entry (i % 256 + 1) ++ c.entry (i % 256)
  else if unit = 5 then
    let c := g.travCtx ((off - 0x100000) / 32)
    match (off - 0x100000) % 32 with
    | 0 => c.eps ++ 0#16 ++ c.limit
    | 8 => c.misses.setWidth 64
    | _ => 0#64
  else if unit = 6 then s.schedWord st off
  else 0#64

/-! ## A read through the map (06 R80, R81) -/

/-- Bytes of a run of dwords. -/
def dwordBytes (f : Nat → Word) (off n : Nat) : List Byte :=
  (List.range n).map fun k => (f ((off + k) / 8 * 8)).extractLsb' (8 * ((off + k) % 8)) 8

/-- The entry of a tile table as a dword (04 R57). -/
def Tile.word (t : Tile) : Word :=
  0#8 ++ BitVec.ofBool t.fault ++ BitVec.ofBool t.trailer ++ t.format ++ t.engine ++ BitVec.ofBool t.owner ++ t.state ++
    t.size ++ t.base

/-- What a read of n bytes through the map returns now, and the tag of a ULM granule. -/
def State.mapRead (s : State) (addr n : Nat) : List Byte × Bool :=
  match windowOf s.grade addr n with
  | .ulm _ _ => (s.readBytes addr n, n == 16 && s.tagAt addr)
  | .xreg core slot reg byte =>
    let v := if reg = 0 then 0 else (((s.liveImg core slot).x.toList.map fun r => r.val.toNat).getD reg 0)
    (bytesOfNat n (v / 2 ^ (8 * byte)), false)
  | .vreg core slot reg byte =>
    let v := ((s.liveImg core slot).v.toList.map fun r => r.val.toNat).getD reg 0
    (bytesOfNat n (v / 2 ^ (8 * byte)), false)
  | .tiles core off => (dwordBytes (fun o => ((s.core core).tile (o / 8)).word) off n, false)
  | .control core off => (dwordBytes (fun o => s.coreCsrWord core (o / 8)) off n, false)
  | .engine st unit off => (dwordBytes (s.engineWord st unit) off n, false)
  | .hole => (List.replicate n 0#8, false)

end Sys2Proof.Machine
end

