-- ==== Sys2Proof/Machine/Tile.lean ====
section
/-!
DEFINITION. Tile.lean: the tile instructions of major 22 (12 R231 to R238) over the tile table (04 R57, 06 R89 to R94).
-/

namespace Sys2Proof.Machine

/-- The current core's entry. -/
def curTile (u : BitVec 6) : Op Tile := do
  let s ← get
  pure ((s.core s.cur.1).tile u.toNat)

def setCurTile (u : BitVec 6) (t : Tile) : Op Unit := do
  let s ← get
  set (s.setTile s.cur.1 u.toNat t)

/-- The bytes of a core's tile. -/
def State.tileBytes (s : State) (core : Nat) (t : Tile) : List Byte := s.readBytes (ulmAddr core t.base.toNat) t.size.toNat

/-- A tile operand (06 R90): ready and core-owned; otherwise the wait bit decides. -/
def tileOperand (wt : Bool) (u : BitVec 6) : Op Tile := do
  let t ← curTile u
  if t.state = 2#2 ∧ !t.owner then pure t
  else if wt then trap (if t.state = 2#2 then Cause.tileOwner else Cause.tileNotReady) (u.setWidth 64)
  else stop .wait

/-- An event of class m that the unit takes at once (07 R97). -/
def unitRequest : Op Unit := awaitFences .m

/-- Does a tile's trailer lie in the bank of its last byte (05 R73)? -/
def Tile.trailerFits (t : Tile) : Bool :=
  let last := t.base.toNat + t.size.toNat - 1
  t.room == t.size.toNat || last / 32768 == (last + 16) / 32768

/-- Is every bank that a tile of a format covers of that format, below the wings (06 R94), with its trailer in place? A trailer beyond
the bank of the tile's last byte is not, also where the next bank is of the tile's format (DESIGN CHOICE, log 84). -/
def Core.tileFits (c : Core) (t : Tile) : Bool :=
  let stop := t.base.toNat + t.room
  decide (stop ≤ 0x38000) && t.trailerFits &&
    (List.range 8).all fun b => !(decide (b * 32768 < stop) && decide (t.base.toNat < (b + 1) * 32768)) || c.bank b == t.format

/-- Does a tile overlap another entry of nonzero size? -/
def Core.tileOverlaps (c : Core) (u : Nat) (t : Tile) : Bool :=
  c.tiles.any fun e => e.1 != u && e.2.size != 0#18 && overlap e.2.base.toNat e.2.room t.base.toNat t.room

def execTdecl (f : BitVec 4) (a : Src) (t : Bool) (u : BitVec 6) : State → Result := plain (do
  let addr : Word := u.setWidth 64
  let old ← curTile u
  if old.owner ∨ old.state ≠ 0#2 then
    if t then trap (if old.owner then Cause.tileOwner else Cause.tileNotReady) addr else stop .wait
  let r ← readSrc a
  requireLocal r 0
  derefCheck r ⟨true, true, false, false, false⟩ 0 1
  let base := (Quad.cursor r.val).toNat
  let size := (Quad.length r.val).toNat - (Quad.offset r.val).toNat
  require (base % 64 == 0 && sizeRule f.toNat size) Cause.tileSize addr
  require (decide (base + size ≤ 0x38000)) Cause.tileFormat addr
  let new : Tile := ⟨false, false, f, old.engine, false, 0#2, BitVec.ofNat 18 size, BitVec.ofNat 18 base⟩
  let s ← get
  let c := s.core s.cur.1
  require (c.tileFits new) Cause.tileFormat addr
  require (!c.tileOverlaps u.toNat new) Cause.tileSize addr
  setCurTile u new)

def execTfree (t : Bool) (u : BitVec 6) : State → Result := plain (do
  let e ← curTile u
  if e.owner then
    if t then trap Cause.tileOwner (u.setWidth 64) else stop .wait
  setCurTile u { e with state := 0#2, size := 0#18, trailer := false, fault := false })

/-! ## Segments (12 R237 to R239) -/

def Stage.stream (g : Stage) (n : Nat) : Stream := Assoc.get Stream.empty g.streams n

def State.setStream (s : State) (st n : Nat) (v : Stream) : State :=
  s.setStage st { s.stage st with streams := Assoc.put Stream.empty (s.stage st).streams n v }

/-- Append a segment to a stream of the current stage; it waits while the stream holds 16. -/
def appendSegment (n : Nat) (g : Segment) : Op Unit := do
  let s ← get
  let st := stageOf s.cur.1
  let q := (s.stage st).stream n
  await (decide (q.segs.length < 16))
  set (s.setStream st n { q with segs := q.segs ++ [g] })

/-- The counter a segment bumps, if it has the enable bit. -/
def segCounter (v : Word) : Option Nat := if v.getLsbD 22 then some (v.extractLsb' 16 6).toNat else none

/-- Has the core an access in flight to a tile's bytes (07 R109)? -/
def State.tileBusy (s : State) (core : Nat) (t : Tile) : Bool :=
  s.reqs.any fun r => r.core == core && r.accesses.any fun e => overlap (ulmAddr core t.base.toNat) t.room e.2.1 e.2.2

def execTgive (a : Src) (t : Bool) (u : BitVec 6) : State → Result := plain (do
  let e ← tileOperand t u
  let r ← readSrc a
  let v := Quad.low r.val
  require (v.extractLsb' 23 41 == 0#41) Cause.engineOperand 0#64
  unitRequest
  let s ← get
  await (!s.tileBusy s.cur.1 e)
  appendSegment (v.extractLsb' 0 8).toNat
    (.tile s.cur.1 u.toNat ((v.extractLsb' 8 8).toNat + 1) (segCounter v) false)
  setCurTile u { e with owner := true, engine := engineName (stageOf s.cur.1) 4 })

/-- Is a segment this tile's, with no play of it made? -/
def Segment.unbegun (core tile : Nat) : Segment → Bool
  | .tile c t _ _ begun => c == core && t == tile && !begun
  | .dram _ _ _ _ _ _ _ => false

/-- The stream that holds a tile as a segment that has not begun to play. -/
def Stage.holding (g : Stage) (core tile : Nat) : Option Nat :=
  (g.streams.find? fun e => e.2.segs.any (Segment.unbegun core tile)).map Prod.fst

def execTtake (t : Bool) (u : BitVec 6) : State → Result := plain (do
  unitRequest
  let s ← get
  let st := stageOf s.cur.1
  match (s.stage st).holding s.cur.1 u.toNat with
  | some n => do
    let q := (s.stage st).stream n
    set (s.setStream st n { q with segs := q.segs.filter fun g => !g.unbegun s.cur.1 u.toNat })
    let e ← curTile u
    setCurTile u { e with owner := false }
  | none => do
    let _ ← tileOperand t u)

def execTwait (t : Bool) (u : BitVec 6) : State → Result := plain (do
  let _ ← tileOperand t u)

def execTstat (d : XName) (u : BitVec 6) : State → Result := plain (do
  destReady d
  writeWord d (← curTile u).word)

def execTfmt (a : Src) : State → Result := plain (do
  let r ← readSrc a
  let v := Quad.low r.val
  let b := (v.extractLsb' 0 3).toNat
  let f := v.extractLsb' 4 4
  let s ← get
  require (v.extractLsb' 8 56 == 0#56 && !v.getLsbD 3 && b != 7 && (s.core s.cur.1).bankMay b f) Cause.tileFormat
    (BitVec.ofNat 64 b)
  set (s.setBank s.cur.1 b f))

def execTtrl (t : Bool) (u : BitVec 6) (o : Bool) : State → Result := plain (do
  let e ← tileOperand t u
  if o then setCurTile u { e with trailer := false }
  else do
    let f := e.format.toNat
    require (isQuant f) Cause.tileFormat (u.setWidth 64)
    let s ← get
    let data := s.tileBytes s.cur.1 e
    let bytes := trailerBytes f ⟨data, maxMag (tileValues f data), 0⟩
    set (s.writeBytes (ulmAddr s.cur.1 (e.base.toNat + e.size.toNat)) bytes)
    setCurTile u { e with trailer := true })

end Sys2Proof.Machine
end

