-- ==== Sys2Proof/Machine/Int.lean ====
section
/-!
DEFINITION. Int.lean: the integer, shift, bit-field, multiply and divide instructions, majors 0 to 3 and `ldi.l`
(09 R142 to R151).
-/

namespace Sys2Proof.Machine

/-! ## The values (09 R143, R146 to R150) -/

/-- The number of leading zero bits of an n-bit number. -/
def clzNat (n v : Nat) : Nat := if v % 2 ^ n = 0 then n else n - 1 - Nat.log2 (v % 2 ^ n)

/-- The number of trailing zero bits of an n-bit number. -/
def ctzNat (n v : Nat) : Nat := ((List.range n).find? fun i => v.testBit i).getD n

/-- The number of 1 bits among the low n bits. -/
def popNat (n v : Nat) : Nat := ((List.range n).filter fun i => v.testBit i).length

/-- The low n bits in reverse order. -/
def brevNat (n v : Nat) : Nat := (List.range n).foldl (fun a i => a * 2 + (v >>> i) % 2) 0

/-- The count of a shift: bits 5:0 (09 R146). -/
def shiftCount (y : Word) : Nat := (y.setWidth 6).toNat

def sextWord (x : Word) (w : Nat) : Word := BitVec.signExtend 64 (BitVec.setWidth w x)

def zextWord (x : Word) (w : Nat) : Word := BitVec.setWidth 64 (BitVec.setWidth w x)

def fshlWord (old x y : Word) : Word := ((old ++ x) <<< shiftCount y).extractLsb' 64 64

def fshrWord (old x y : Word) : Word := ((x ++ old) >>> shiftCount y).extractLsb' 0 64

/-- The field length of 09 R148: s2[14:8], at most 64. -/
def fieldLen (y : Word) : Nat := Nat.min (y.extractLsb' 8 7).toNat 64

def bextWord (x y : Word) : Word := zextWord (x >>> shiftCount y) (fieldLen y)

def binsWord (old x y : Word) : Word :=
  let m : Word := BitVec.ofNat 64 (2 ^ fieldLen y - 1) <<< shiftCount y
  (old &&& ~~~m) ||| (zextWord x (fieldLen y) <<< shiftCount y)

/-- The high half of a product of two integers. -/
def highWord (p : Int) : Word := BitVec.ofInt 64 (p / 18446744073709551616)

def divWord (x y : Word) : Word :=
  if y = 0#64 then (if x = 0#64 then 0#64 else if x.msb then BitVec.intMin 64 else BitVec.intMax 64)
  else if x = BitVec.intMin 64 ∧ y = BitVec.allOnes 64 then BitVec.intMax 64
  else BitVec.ofInt 64 (x.toInt.tdiv y.toInt)

def divuWord (x y : Word) : Word :=
  if y = 0#64 then (if x = 0#64 then 0#64 else BitVec.allOnes 64) else x / y

def remWord (x y : Word) : Word := if y = 0#64 then 0#64 else BitVec.ofInt 64 (x.toInt.tmod y.toInt)

def remuWord (x y : Word) : Word := if y = 0#64 then 0#64 else x % y

/-! ## The shapes -/

/-- Two sources, one result. -/
def binaryOp (f : Word → Word → Word) (d : XName) (a b : Src) : State → Result := plain (do
  destReady d
  let r ← readSrc2 a b
  writeWord d (f (Quad.low r.1.val) (Quad.low r.2.val)))

/-- One source, one result. -/
def unaryOp (f : Word → Word) (d : XName) (a : Src) : State → Result := plain (do
  destReady d
  let r ← readSrc a
  writeWord d (f (Quad.low r.val)))

/-- Two sources and the old destination (09 R142). -/
def destOp (f : Word → Word → Word → Word) (d : XName) (a b : Src) : State → Result := plain (do
  let o ← readDest d
  let r ← readSrc2 a b
  writeWord d (f (Quad.low o.val) (Quad.low r.1.val) (Quad.low r.2.val)))

/-- A division: its result arrives late (09 R149, R151). -/
def divideOp (f : Word → Word → Word) (d : XName) (a b : Src) : State → Result := plain (do
  destReady d
  let r ← readSrc2 a b
  let dst ← lateDest d 8 false false
  if dst = .none then pure ()
  else do
    let s ← get
    let _ ← pushReq none (.core s.cur.1) [] (.divide dst (f (Quad.low r.1.val) (Quad.low r.2.val)))
    pure ())

/-! ## Major 0 (09 R143) -/

def execAdd (d : XName) (a b : Src) : State → Result := binaryOp (· + ·) d a b
def execSub (d : XName) (a b : Src) : State → Result := binaryOp (· - ·) d a b
def execAnd (d : XName) (a b : Src) : State → Result := binaryOp (· &&& ·) d a b
def execOr (d : XName) (a b : Src) : State → Result := binaryOp (· ||| ·) d a b
def execXor (d : XName) (a b : Src) : State → Result := binaryOp (· ^^^ ·) d a b
def execAndn (d : XName) (a b : Src) : State → Result := binaryOp (fun x y => x &&& ~~~y) d a b
def execOrn (d : XName) (a b : Src) : State → Result := binaryOp (fun x y => x ||| ~~~y) d a b
def execMin (d : XName) (a b : Src) : State → Result := binaryOp (fun x y => if x.sle y then x else y) d a b
def execMax (d : XName) (a b : Src) : State → Result := binaryOp (fun x y => if x.sle y then y else x) d a b
def execMinu (d : XName) (a b : Src) : State → Result := binaryOp (fun x y => if x ≤ y then x else y) d a b
def execMaxu (d : XName) (a b : Src) : State → Result := binaryOp (fun x y => if x ≤ y then y else x) d a b
def execSlt (d : XName) (a b : Src) : State → Result := binaryOp (fun x y => boolWord (x.slt y)) d a b
def execSltu (d : XName) (a b : Src) : State → Result := binaryOp (fun x y => boolWord (x.ult y)) d a b
def execSeq (d : XName) (a b : Src) : State → Result := binaryOp (fun x y => boolWord (x == y)) d a b
def execSel (d : XName) (a b : Src) : State → Result := destOp (fun o x y => if o ≠ 0#64 then x else y) d a b
def execAbs (d : XName) (a : Src) : State → Result := unaryOp (fun x => if x.msb then -x else x) d a

/-! ## Major 1 and `ldi.l` (09 R144, R145) -/

def execAddi (d : XName) (a : Src) (i : BitVec 11) : State → Result := unaryOp (· + i.signExtend 64) d a
def execAndi (d : XName) (a : Src) (i : BitVec 11) : State → Result := unaryOp (· &&& i.signExtend 64) d a
def execOri (d : XName) (a : Src) (i : BitVec 11) : State → Result := unaryOp (· ||| i.signExtend 64) d a
def execXori (d : XName) (a : Src) (i : BitVec 11) : State → Result := unaryOp (· ^^^ i.signExtend 64) d a
def execSlti (d : XName) (a : Src) (i : BitVec 11) : State → Result :=
  unaryOp (fun x => boolWord (x.slt (i.signExtend 64))) d a
def execSltiu (d : XName) (a : Src) (i : BitVec 11) : State → Result :=
  unaryOp (fun x => boolWord (x.ult (i.signExtend 64))) d a
def execLdi (d : XName) (i : BitVec 11) : State → Result := plain (do destReady d; writeWord d (i.signExtend 64))
def execLdiL (d : XName) (i : BitVec 40) : State → Result := plain (do destReady d; writeWord d (i.signExtend 64))

/-! ## Major 2 (09 R146 to R148) -/

def execShl (d : XName) (a b : Src) : State → Result := binaryOp (fun x y => x <<< shiftCount y) d a b
def execShr (d : XName) (a b : Src) : State → Result := binaryOp (fun x y => x >>> shiftCount y) d a b
def execSra (d : XName) (a b : Src) : State → Result := binaryOp (fun x y => x.sshiftRight (shiftCount y)) d a b
def execRot (d : XName) (a b : Src) : State → Result := binaryOp (fun x y => x.rotateLeft (shiftCount y)) d a b
def execFshl (d : XName) (a b : Src) : State → Result := destOp fshlWord d a b
def execFshr (d : XName) (a b : Src) : State → Result := destOp fshrWord d a b
def execShli (d : XName) (a : Src) (i : BitVec 6) : State → Result := unaryOp (· <<< i.toNat) d a
def execShri (d : XName) (a : Src) (i : BitVec 6) : State → Result := unaryOp (· >>> i.toNat) d a
def execSrai (d : XName) (a : Src) (i : BitVec 6) : State → Result := unaryOp (fun x => x.sshiftRight i.toNat) d a
def execRoti (d : XName) (a : Src) (i : BitVec 6) : State → Result := unaryOp (fun x => x.rotateLeft i.toNat) d a
def execClz (d : XName) (a : Src) : State → Result := unaryOp (fun x => BitVec.ofNat 64 (clzNat 64 x.toNat)) d a
def execCtz (d : XName) (a : Src) : State → Result := unaryOp (fun x => BitVec.ofNat 64 (ctzNat 64 x.toNat)) d a
def execPopc (d : XName) (a : Src) : State → Result := unaryOp (fun x => BitVec.ofNat 64 (popNat 64 x.toNat)) d a
def execBrev (d : XName) (a : Src) : State → Result := unaryOp (fun x => BitVec.ofNat 64 (brevNat 64 x.toNat)) d a
def execSext (d : XName) (a : Src) (n : BitVec 6) : State → Result := unaryOp (fun x => sextWord x (n.toNat + 1)) d a
def execZext (d : XName) (a : Src) (n : BitVec 6) : State → Result := unaryOp (fun x => zextWord x (n.toNat + 1)) d a
def execBext (d : XName) (a b : Src) : State → Result := binaryOp bextWord d a b
def execBins (d : XName) (a b : Src) : State → Result := destOp binsWord d a b

/-! ## Major 3 (09 R149, R150) -/

def execMul (d : XName) (a b : Src) : State → Result := binaryOp (· * ·) d a b
def execMulh (d : XName) (a b : Src) : State → Result := binaryOp (fun x y => highWord (x.toInt * y.toInt)) d a b
def execMulhu (d : XName) (a b : Src) : State → Result := binaryOp (fun x y => highWord (x.toNat * y.toNat)) d a b
def execMulhm (d : XName) (a b : Src) : State → Result := binaryOp (fun x y => highWord (x.toInt * y.toNat)) d a b
def execDiv (d : XName) (a b : Src) : State → Result := divideOp divWord d a b
def execDivu (d : XName) (a b : Src) : State → Result := divideOp divuWord d a b
def execRem (d : XName) (a b : Src) : State → Result := divideOp remWord d a b
def execRemu (d : XName) (a b : Src) : State → Result := divideOp remuWord d a b

end Sys2Proof.Machine
end

