-- ==== Sys2Proof/Machine/Control.lean ====
section
/-!
DEFINITION. Control.lean: branches, jumps, hardware loops and task control (09 R161 to R174), the group requests that `done`
makes (03 R38, R39), and the compact forms of the integer and control instructions (08 R136).
-/

namespace Sys2Proof.Machine

/-! ## Branches (08 R131, 09 R161, R163) -/

def condEq (x y : Word) : Bool := x == y
def condNe (x y : Word) : Bool := x != y
def condLt (x y : Word) : Bool := x.slt y
def condGe (x y : Word) : Bool := !x.slt y
def condLtu (x y : Word) : Bool := x.ult y
def condGeu (x y : Word) : Bool := !x.ult y

/-- The comparison of a cond code, or none where it is reserved. -/
def condOf (c : BitVec 3) : Option (Word → Word → Bool) :=
  match c.toNat with
  | 0 => some condEq
  | 1 => some condNe
  | 4 => some condLt
  | 5 => some condGe
  | 6 => some condLtu
  | 7 => some condGeu
  | _ => none

/-- wrap(pc + 2 × offset, 18). -/
def pcPlus (pc : Ulm) (halfwords : Int) : Ulm := BitVec.ofInt 18 (pc.toNat + 2 * halfwords)

/-- A branch on two sources. -/
def branchOp (cond : Word → Word → Bool) (a b : Src) (halfwords : Int) : Op Next := do
  loopEndCheck
  let r ← readSrc2 a b
  let s ← get
  if cond (Quad.low r.1.val) (Quad.low r.2.val) then jumpTo (pcPlus s.img.pc halfwords) else pure .seq

def execBeq (a b : Src) (o : BitVec 10) : State → Result := finish (branchOp condEq a b o.toInt)
def execBne (a b : Src) (o : BitVec 10) : State → Result := finish (branchOp condNe a b o.toInt)
def execBlt (a b : Src) (o : BitVec 10) : State → Result := finish (branchOp condLt a b o.toInt)
def execBge (a b : Src) (o : BitVec 10) : State → Result := finish (branchOp condGe a b o.toInt)
def execBltu (a b : Src) (o : BitVec 10) : State → Result := finish (branchOp condLtu a b o.toInt)
def execBgeu (a b : Src) (o : BitVec 10) : State → Result := finish (branchOp condGeu a b o.toInt)

def execBL (c : BitVec 3) (a b : Src) (o : BitVec 30) : State → Result := finish (
  match condOf c with
  | none => illegal
  | some f => branchOp f a b o.toInt)

/-! ## Jumps (09 R162, R164) -/

/-- pc + 4, exact (00 R8). -/
def linkOf (pc : Ulm) : Word := pc.setWidth 64 + 4#64

def execJal (d : XName) (o : BitVec 20) : State → Result := finish (do
  loopEndCheck
  destReady d
  let pc := (← get).img.pc
  writeWord d (linkOf pc)
  jumpTo (pcPlus pc o.toInt))

/-- The target that a jump register names (09 R164). -/
def jumpTarget (r : XReg) : Op Ulm := do
  let q := r.val
  if r.tag then do
    require (Quad.kind q == 0#2 || Quad.kind q == 2#2) Cause.capKind 0#64
    require (!Quad.hasG q) Cause.capKind 0#64
    require (Quad.hasX q) Cause.capPermission 0#64
    require (decide ((Quad.offset q).toNat + 2 ≤ (Quad.length q).toNat) && decide ((Quad.cursor q).toNat + 2 ≤ 0x40000))
      Cause.capBounds 0#64
    pure ((Quad.cursor q).setWidth 18)
  else pure (q.setWidth 18)

/-- `jr` and `jalr`: s1 is read before the link is written; the link of `jr` is none. -/
def jumpRegOp (d : XName) (a : Src) : Op Next := do
  loopEndCheck
  destReady d
  let r ← readSrc a
  let t ← jumpTarget r
  let pc := (← get).img.pc
  writeWord d (linkOf pc)
  jumpTo t

def execJr (a : Src) : State → Result := finish (jumpRegOp 0#5 a)
def execJalr (d : XName) (a : Src) : State → Result := finish (jumpRegOp d a)

/-! ## Hardware loops (03 R42, 09 R166 to R168) -/

/-- A loop instruction, its end a distance in halfwords from its own address. An end past ULM wraps around, and a count of zero skips
to what follows the wrapped end; it does so without a loop test where it stands at another loop's end (DESIGN CHOICE, log 83). -/
def loopOp (count : BitVec 32) (dist : BitVec 11) : Op Next := do
  let s ← get
  let pc := s.img.pc
  let stop := pc + (dist.setWidth 18 <<< 1)
  require (decide (2 ≤ dist.toNat)) Cause.loopRange s.curWord
  if count = 0#32 then pure (.jump (s.nextPc s.cur.1 stop))
  else do
    require (decide (s.img.loops.depth.toNat < 2)) Cause.loopOverflow s.curWord
    let e : LoopEntry := ⟨(s.nextPc s.cur.1 pc).extractLsb' 1 17, stop.extractLsb' 1 17, count⟩
    set (s.setImg { s.img with loops := s.img.loops.push e })
    pure .seq

def execLoop (a : Src) (e : BitVec 11) : State → Result := finish (do
  let r ← readSrc a
  loopOp (r.val.setWidth 32) e)

def execLoopi (n : BitVec 13) (e : BitVec 11) : State → Result := finish (loopOp (n.setWidth 32) e)

/-! ## Groups, as requests to their home cores (03 R38) -/

/-- The cores a group's home is chosen from: the partition's core list; for a core in no partition, its stage's. -/
def State.groupCores (s : State) (core : Nat) : List Nat :=
  match s.partOf core with
  | some p => s.coreList p
  | none => coresOf (stageOf core)

/-- The home core of a group. -/
def State.homeOf (s : State) (core : Nat) (gid : BitVec 16) : Nat :=
  let l := s.groupCores core
  l.getD (gid.toNat * 40503 % 65536 * l.length / 65536) core

/-- Send a group request to the home core; the number of the request. -/
def groupRequest (op : GroupOp) (gid : BitVec 16) (dst : XName) : Op Nat := do
  let s ← get
  pushReq (some .m) (.core (s.homeOf s.cur.1 gid)) [] (.group op gid dst)

/-- The groups a task is a member of, or has a join pending in. -/
def State.groupsOf (s : State) (core ctx epoch : Nat) : List (BitVec 16) :=
  s.cores.flatMap fun c => (c.2.groups.filter fun g =>
    g.2.members.any fun m => m.core == core && m.ctx == ctx && m.epoch == epoch).map fun g => BitVec.ofNat 16 g.1

/-- The thread leaves every group it belongs to. -/
def leaveGroups : List (BitVec 16) → Op Unit
  | [] => pure ()
  | g :: gs => do
    set ((← get).sent (← get).cur.1)
    let _ ← groupRequest .ended g 0#5
    leaveGroups gs

/-! ## Task control (09 R170 to R174) -/

/-- `done` (09 R171): return inline, or end the thread or the activation. Elements already written are stored first.
The requests to leave its groups are sent as the slot becomes free, which waits for no answer (DESIGN CHOICE, log 83). -/
def doneOp : Op Next := do
  loopEndCheck
  let s ← get
  let core := s.cur.1
  let ctx := s.cur.2
  let t := s.curThread
  if ctx = 16 then do
    await t.img.appended
    let s := s.postDeferred core t.slot.deferred
    set ((s.setCur t.freed).setCore core { s.core core with activation := none })
    pure .stay
  else if t.img.inlineValid then do
    set (s.setImg { t.img with inlineValid := false, trap := t.img.trap.clearNest })
    jumpTo t.img.inlinePc
  else do
    await t.img.appended
    leaveGroups (s.groupsOf core ctx t.slot.epoch)
    let s ← get
    let s := (s.postDeferred core t.slot.deferred).oweReplies core ctx t.slot.replies
    set (s.setCur s.curThread.freed)
    pure .stay

def execDone : State → Result := finish doneOp

def execYield : State → Result := finish (do
  loopEndCheck
  notInHandler
  let s ← get
  let core := s.cur.1
  let ctx := s.cur.2
  match s.readyOut core with
  | some k => do
    await ((s.core core).swap.isNone && s.img.appended)
    set ((s.retireTo core ctx (s.nextPc core s.img.pc)).startSwap core (some ctx) k)
    pure .stay
  | none => pure .seq)

def execNop : State → Result := plain (pure ())

/-- `waitf` (09 R173), a producer whose value a window write brings (04 R51). -/
def execWaitf (d : XName) : State → Result := plain (do
  destReady d
  if d = 0#5 then pure () else awaitWindow d none)

def execTrap (c : BitVec 11) : State → Result := finish (do
  loopEndCheck
  stop (.trapNext Cause.software (c.setWidth 64)))

/-! ## Compact forms (08 R136) -/

/-- The register that a 3-bit field of a compact form names. -/
def compactReg (k : BitVec 3) : XName := k.setWidth 5 + 8#5

/-- A compact source: its wait bit is clear. -/
def compactSrc (k : BitVec 3) : Src := ⟨compactReg k, false⟩

/-- `x0` as a source. -/
def zeroSrc : Src := ⟨0#5, false⟩

def execCMov (a b : BitVec 3) : State → Result := binaryOp (· ||| ·) (compactReg a) (compactSrc b) zeroSrc
def execCAdd (a b : BitVec 3) : State → Result := binaryOp (· + ·) (compactReg a) (compactSrc a) (compactSrc b)
def execCSub (a b : BitVec 3) : State → Result := binaryOp (· - ·) (compactReg a) (compactSrc a) (compactSrc b)
def execCAddi (a : BitVec 3) (i : BitVec 8) : State → Result :=
  unaryOp (· + i.signExtend 64) (compactReg a) (compactSrc a)
def execCLdi (a : BitVec 3) (i : BitVec 8) : State → Result := plain (do
  destReady (compactReg a)
  writeWord (compactReg a) (i.signExtend 64))
def execCBeqz (a : BitVec 3) (i : BitVec 8) : State → Result := finish (branchOp condEq (compactSrc a) zeroSrc i.toInt)
def execCBnez (a : BitVec 3) (i : BitVec 8) : State → Result := finish (branchOp condNe (compactSrc a) zeroSrc i.toInt)
def execCJ (i : BitVec 11) : State → Result := finish (do
  loopEndCheck
  jumpTo (pcPlus (← get).img.pc i.toInt))
def execCNop : State → Result := plain (pure ())
def execCDone : State → Result := finish doneOp
def execCRet : State → Result := finish (jumpRegOp 0#5 ⟨1#5, false⟩)

end Sys2Proof.Machine
end

