-- ==== Sys2Proof/Machine/Mem.lean ====
section
/-!
DEFINITION. Mem.lean: loads, stores, post-increment accesses and `lea`, majors 8 to 10 (10 R177 to R182).
-/

namespace Sys2Proof.Machine

/-! ## Loads (10 R177) -/

/-- The tag a local `lq` gives its register: the granule's, through a capability with C (04 R50). -/
def localTag (s : State) (q : Quad) (quad : Bool) (a : Nat) : Bool := quad && Quad.hasC q && s.tagAt a

/-- The load of n bytes at cursor + off of a base that has been read, into a ready d. -/
def loadAt (n : Nat) (signed quad : Bool) (d : XName) (r : XReg) (off : Int) : Op Unit := do
  match ← accessCheck r needL off n n with
  | .local o => do
    awaitLocal .r o n
    let s ← get
    let a := ulmAddr s.cur.1 o
    writeX d (loadValue n signed quad (s.readBytes a n)) (localTag s r.val quad a)
  | .map a => do
    let dst ← lateDest d n signed quad
    let _ ← pushMap .r a n [] (.read a n (quad && Quad.hasC r.val) dst)
    pure ()

/-- A load of n bytes with imm × n as its offset. -/
def loadOp (n : Nat) (signed quad : Bool) (d : XName) (a : Src) (i : Int) : State → Result := plain (do
  destReady d
  let r ← readSrc a
  loadAt n signed quad d r (i * n))

def execLb (d : XName) (a : Src) (i : BitVec 11) : State → Result := loadOp 1 true false d a i.toInt
def execLh (d : XName) (a : Src) (i : BitVec 11) : State → Result := loadOp 2 true false d a i.toInt
def execLw (d : XName) (a : Src) (i : BitVec 11) : State → Result := loadOp 4 true false d a i.toInt
def execLd (d : XName) (a : Src) (i : BitVec 11) : State → Result := loadOp 8 false false d a i.toInt
def execLbu (d : XName) (a : Src) (i : BitVec 11) : State → Result := loadOp 1 false false d a i.toInt
def execLhu (d : XName) (a : Src) (i : BitVec 11) : State → Result := loadOp 2 false false d a i.toInt
def execLwu (d : XName) (a : Src) (i : BitVec 11) : State → Result := loadOp 4 false false d a i.toInt
def execLq (d : XName) (a : Src) (i : BitVec 11) : State → Result := loadOp 16 false true d a i.toInt

/-! ## Stores (10 R179) -/

/-- The tag that `sq` through the map may set: to another core's ULM only for a capability with G = 1 (04 R50). -/
def mapStoreTag (s : State) (a : Nat) (v : XReg) : Bool :=
  v.tag && (Quad.hasG v.val || (decide (a < 17179869184) && a / 1048576 == s.cur.1))

/-- The store of the low n bytes of a value at cursor + off of a base that has been read. -/
def storeAt (n : Nat) (quad : Bool) (r v : XReg) (off : Int) : Op Unit := do
  let bs := bytesOfNat n v.val.toNat
  match ← accessCheck r { needS with c := quad && v.tag } off n n with
  | .local o => do
    awaitRoom
    awaitLocal .w o n
    let s ← get
    set (s.writeTagged (ulmAddr s.cur.1 o) bs (quad && v.tag))
  | .map a => do
    let _ ← pushStore (← publish) a bs (quad && mapStoreTag (← get) a v) []
    pure ()

/-- A store of n bytes with imm × n as its offset; s1 is the base, s2 the data. -/
def storeOp (n : Nat) (quad : Bool) (a b : Src) (i : Int) : State → Result := plain (do
  let r ← readSrc2 a b
  storeAt n quad r.1 r.2 (i * n))

def execSb (a b : Src) (i : BitVec 8) : State → Result := storeOp 1 false a b i.toInt
def execSh (a b : Src) (i : BitVec 8) : State → Result := storeOp 2 false a b i.toInt
def execSw (a b : Src) (i : BitVec 8) : State → Result := storeOp 4 false a b i.toInt
def execSd (a b : Src) (i : BitVec 8) : State → Result := storeOp 8 false a b i.toInt
def execSq (a b : Src) (i : BitVec 8) : State → Result := storeOp 16 true a b i.toInt

/-! ## Post-increment accesses (10 R180) -/

/-- Advance the base's cursor after an access; it keeps its tag. -/
def stepBase (a : XName) (r : XReg) (step : Int) : Op Unit := setX a (capStep r.val step) r.tag

def postStoreOp (n : Nat) (quad : Bool) (a b : Src) (i : Int) : State → Result := plain (do
  let r ← readSrc2 a b
  storeAt n quad r.1 r.2 0
  stepBase a.reg r.1 (i * n))

def postLoadOp (n : Nat) (signed quad : Bool) (d : XName) (a : Src) (i : Int) : State → Result := plain (do
  legal (d != a.reg)
  destReady d
  let r ← readSrc a
  loadAt n signed quad d r 0
  stepBase a.reg r (i * n))

def execSbPostinc (a b : Src) (i : BitVec 8) : State → Result := postStoreOp 1 false a b i.toInt
def execShPostinc (a b : Src) (i : BitVec 8) : State → Result := postStoreOp 2 false a b i.toInt
def execSwPostinc (a b : Src) (i : BitVec 8) : State → Result := postStoreOp 4 false a b i.toInt
def execSdPostinc (a b : Src) (i : BitVec 8) : State → Result := postStoreOp 8 false a b i.toInt
def execSqPostinc (a b : Src) (i : BitVec 8) : State → Result := postStoreOp 16 true a b i.toInt
def execLbPostinc (d : XName) (a : Src) (i : BitVec 8) : State → Result := postLoadOp 1 true false d a i.toInt
def execLhPostinc (d : XName) (a : Src) (i : BitVec 8) : State → Result := postLoadOp 2 true false d a i.toInt
def execLwPostinc (d : XName) (a : Src) (i : BitVec 8) : State → Result := postLoadOp 4 true false d a i.toInt
def execLdPostinc (d : XName) (a : Src) (i : BitVec 8) : State → Result := postLoadOp 8 false false d a i.toInt
def execLbuPostinc (d : XName) (a : Src) (i : BitVec 8) : State → Result := postLoadOp 1 false false d a i.toInt
def execLhuPostinc (d : XName) (a : Src) (i : BitVec 8) : State → Result := postLoadOp 2 false false d a i.toInt
def execLwuPostinc (d : XName) (a : Src) (i : BitVec 8) : State → Result := postLoadOp 4 false false d a i.toInt
def execLqPostinc (d : XName) (a : Src) (i : BitVec 8) : State → Result := postLoadOp 16 false true d a i.toInt

/-! ## `lea` (10 R182) and the compact forms -/

def execLea (d : XName) (a : Src) (sc : BitVec 2) (i : BitVec 10) : State → Result := plain (do
  destReady d
  let r ← readSrc a
  let off := i.toNat * 8 ^ sc.toNat
  if r.tag then do
    require (isLinearOrMesh r.val) Cause.capKind 0#64
    writeX d (capStep r.val off) true
  else writeWord d (Quad.low r.val + BitVec.ofNat 64 off))
where
  isLinearOrMesh (q : Quad) : Bool := Quad.kind q == 0#2 || Quad.kind q == 1#2

/-- `c.lw` (08 R136). -/
def execCLw (a b : BitVec 3) (i : BitVec 5) : State → Result :=
  loadOp 4 true false (compactReg a) (compactSrc b) i.toNat

/-- `c.sw` (08 R136): a is the data and b the base. -/
def execCSw (a b : BitVec 3) (i : BitVec 5) : State → Result := storeOp 4 false (compactSrc b) (compactSrc a) i.toNat

end Sys2Proof.Machine
end

