-- ==== Sys2Proof/Machine/Sync.lean ====
section
/-!
DEFINITION. Sync.lean: completion counters (10 R190, R191), fences (10 R192 to R194, 07 R101), groups (03 R38 to R41, 10
R206 to R208) and what their home cores do.
-/

namespace Sys2Proof.Machine

/-! ## Counters (10 R190, R191) -/

/-- `cwait`: it tests at issue whether the counter's value is at least n, unsigned, and again at each change of the counter. -/
def cwaitOp (c : BitVec 6) (n : Nat) : Op Next := do
  let s ← get
  if n ≤ ((s.core s.cur.1).counter c.toNat).value.toNat then pure .seq else pure (.hold (.counter c.toNat n))

/-- `cadd`: a q event of the task (07 R97). -/
def caddOp (c : BitVec 6) (step : BitVec 32) : Op Unit := do
  awaitFences .q
  let s ← get
  set (s.addCounter s.cur.1 c.toNat step)

/-- `cset`: it fires no trigger. -/
def csetOp (c : BitVec 6) (value : BitVec 32) (trigger : Option (BitVec 8)) : Op Unit := do
  awaitFences .q
  let s ← get
  let k := (s.core s.cur.1).counter c.toNat
  set (s.putCounter s.cur.1 c.toNat ⟨trigger.getD k.trigger, value⟩)

def execCwait (c : BitVec 6) (i : BitVec 11) : State → Result := finish (cwaitOp c i.toNat)

def execCwaitReg (c : BitVec 6) (a : Src) : State → Result := finish (do
  let r ← readSrc a
  cwaitOp c (r.val.setWidth 32).toNat)

def execCadd (c : BitVec 6) (i : BitVec 11) : State → Result := plain (caddOp c (i.signExtend 32))

def execCaddReg (c : BitVec 6) (a : Src) : State → Result := plain (do
  let r ← readSrc a
  caddOp c (r.val.setWidth 32))

def execCset (c : BitVec 6) (i : BitVec 11) : State → Result := plain (csetOp c (i.setWidth 32) none)

def execCsetReg (c : BitVec 6) (a : Src) : State → Result := plain (do
  let r ← readSrc a
  csetOp c (r.val.setWidth 32) (some (r.val.extractLsb' 32 8)))

def execCrd (d : XName) (c : BitVec 6) : State → Result := plain (do
  destReady d
  let s ← get
  let k := (s.core s.cur.1).counter c.toNat
  writeWord d (0#24 ++ k.trigger ++ k.value))

/-- `c.cwait` (08 R136). -/
def execCCwait (c : BitVec 6) (i : BitVec 5) : State → Result := finish (cwaitOp c i.toNat)

/-- A bump reaches its counter. -/
def execCounterBump (id : Nat) (s : State) : Result :=
  .next (match s.req id with
    | some r =>
      match r.body with
      | .bump core n times => ((s.drop id).receive r.core core [BitVec.ofNat 32 times]).addCounter core n (BitVec.ofNat 32 times)
      | .cadd core n step => if s.mayRun r then ((s.drop id).travel r.core core [step]).addCounter core n step else s
      | _ => s
    | none => s)

/-! ## Fences (10 R192 to R194) -/

/-- Is an access an atomic on a page of class UO? A fence orders it only where its set names q (07 R107). -/
def Body.unordered (b : Body) : Bool :=
  match b with
  | .atomic a => a.phys.any fun p => p.order == 2
  | _ => false

/-- The task's events in flight whose class is in a set and whose target lies inside a scope instance (10 R193), the stores of
reserved elements among them. A queue
entry's accesses to the core's own ULM lie in every instance. -/
def State.fenceTargets (s : State) (sc : Scope) (p : BitVec 5) : List Nat :=
  let core := s.cur.1
  let ctx := s.cur.2
  let epoch := s.curThread.slot.epoch
  let reqs := s.reqs.filter fun r => r.core == core && r.ctx == ctx && r.epoch == epoch &&
    (r.cls.any fun c => p.getLsbD c.bit) && (!r.body.unordered || p.getLsbD Cls.q.bit) && sc.holds core r.place
  let entries := if p.getLsbD Cls.q.bit then
      ((s.core core).queues.dq.filter fun e => e.2.ctx == ctx && e.2.epoch == epoch).map fun e => e.2.id
    else []
  let appends := if p.getLsbD Cls.w.bit then
      (s.reqs.filterMap fun r => if s.isMine r then r.body.element else none).filter fun e => sc.holds core (placeOf e.addr)
    else []
  reqs.map Req.id ++ entries ++ appends.map Element.id

/-- The sets a fence acts with: `fence.y rw, rw` orders every event (07 R106). -/
def fenceSets (sc : Scope) (p q : BitVec 5) : BitVec 5 × BitVec 5 :=
  if sc = .system ∧ p = 3#5 ∧ q = 3#5 then (31#5, 31#5) else (p, q)

/-- A scoped fence: later events of a class in Q follow the events it waits for; later stores carry its scope (07 R112). -/
def fenceOp (sc : Scope) (p q : BitVec 5) : Op Unit := do
  legal (p != 0#5 && q != 0#5)
  let (p, q) := fenceSets sc p q
  let s ← get
  let v := s.curThread.slot
  let old := v.fences.filter fun f => f.waits.any s.inFlight
  let new : FenceRec := ⟨s.fenceTargets sc p, q⟩
  set (s.setSlot { v with
    fences := if new.waits.isEmpty then old else old ++ [new]
    storeScope := if q.getLsbD Cls.w.bit then some sc else v.storeScope })

def execFenceC (p q : BitVec 5) : State → Result := plain (fenceOp .core p q)
def execFenceS (p q : BitVec 5) : State → Result := plain (fenceOp .stage p q)
def execFenceD (p q : BitVec 5) : State → Result := plain (fenceOp .die p q)
def execFenceP (p q : BitVec 5) : State → Result := plain (fenceOp .package p q)
def execFenceY (p q : BitVec 5) : State → Result := plain (fenceOp .system p q)

/-- Has the task an earlier write to DRAM that is not performed (10 R194)? -/
def State.dramWrites (s : State) : Bool :=
  let core := s.cur.1
  let ctx := s.cur.2
  let epoch := s.curThread.slot.epoch
  ((s.core core).queues.dq.any fun e => e.2.kind == .push && e.2.ctx == ctx && e.2.epoch == epoch) ||
    s.reqs.any fun r => r.core == core && r.ctx == ctx && r.epoch == epoch &&
      match r.body with
      | .atomic a => a.phys.isSome
      | _ => false

/-- `afence`: it waits for the task's writes to DRAM, and joins them, and the task's later reads, to the other names of their
bytes (07 R108). -/
def execAfence : State → Result := plain (do
  await (!(← get).dramWrites)
  let s ← get
  let v := s.curThread.slot
  let me := (s.cur.1, s.cur.2, v.epoch)
  set { s.setSlot { v with afenced := true } with
    aliases := s.aliases.map fun (a : Alias) => if a.writer == me then { a with joined := true } else a })

/-- `ifence` discards the fetch buffer (06 R96). -/
def execIfence : State → Result := plain (do
  let s ← get
  set (s.setCore s.cur.1 { s.core s.cur.1 with fetch := none }))

/-! ## Groups (03 R39 to R41, 10 R206, R207) -/

/-- A group instruction: the task holds until its answer. -/
def groupOp (op : GroupOp) (d : XName) (a : Src) : Op Next := do
  destReady d
  let r ← readSrc a
  set ((← get).sent (← get).cur.1)
  let id ← groupRequest op (r.val.setWidth 16) d
  pure (.hold (.answer id))

def execJoin (a : Src) : State → Result := finish (do notInHandler; groupOp .join 0#5 a)
def execLeave (a : Src) : State → Result := finish (do notInHandler; groupOp .leave 0#5 a)
def execBarw (a : Src) : State → Result := finish (do notInHandler; groupOp .barw 0#5 a)
def execBara (a : Src) : State → Result := finish (do notInHandler; groupOp .bara 0#5 a)
def execBard (a : Src) : State → Result := finish (do notInHandler; groupOp .bard 0#5 a)
def execBarq (d : XName) (a : Src) : State → Result := finish (groupOp .barq d a)
def execQuiesce : State → Result := finish (do notInHandler; pure (.hold .quiescence))

/-- Is an entry a member of the current phase? -/
def Member.counted (m : Member) : Bool := !m.pending || m.leaving

/-- The group after its current phase completes: the next phase's members, none of whom has arrived. -/
def Group.advance (g : Group) : Group :=
  let next := (g.members.filter fun m => m.pending || !m.leaving).map fun m =>
    { m with arrived := false, leaving := false, pending := false, waiter := none }
  ⟨g.phase + 1#32, next.length, next⟩

/-- Has every member of the current phase arrived? -/
def Group.complete (g : Group) : Bool := (g.members.filter fun m => m.counted && m.arrived).length == g.expected

/-- Put an answer in flight under the number of the request it answers. -/
def State.answer (s : State) (core ctx epoch id : Nat) (body : Body) : State :=
  { s with reqs := s.reqs ++ [⟨id, core, ctx, epoch, some .m, .core core, [], body⟩] }

/-- The answers to the members that wait for the phase. -/
def State.wakeMembers (s : State) (home : Nat) (gid : BitVec 16) : List Member → State
  | [] => s
  | m :: ms =>
    (match m.waiter with
      | some id => (s.sent home).answer m.core m.ctx m.epoch id (.groupAnswer gid .ok 0#5)
      | none => s).wakeMembers home gid ms

/-- Store a group on its home core: a phase all of whose members have arrived completes; an empty group is dissolved. -/
def State.putGroup (s : State) (home : Nat) (gid : BitVec 16) (g : Group) : State :=
  let store (s : State) (g : Group) : State :=
    let c := s.core home
    s.setCore home { c with groups := if g.members.isEmpty then c.groups.del gid.toNat else c.groups.set gid.toNat g }
  if g.complete then (store s g.advance).wakeMembers home gid g.members else store s g

/-- The status word of `barq` (10 R207). -/
def groupStatus (g : Option Group) (is : Member → Bool) : Word :=
  match g with
  | none => 0#64
  | some g =>
    let m := g.members.find? is
    0#15 ++ BitVec.ofNat 13 g.expected ++ BitVec.ofBool (m.any Member.pending) ++ BitVec.ofBool (m.any Member.arrived) ++
      BitVec.ofBool (m.any Member.counted) ++ 1#1 ++ g.phase

/-- Replace the entry of one thread. -/
def Group.update (g : Group) (is : Member → Bool) (f : Member → Member) : Group :=
  { g with members := g.members.map fun m => if is m then f m else m }

/-- What a home core does with a request (03 R39 to R41): the answer, or none where it is put off or not wanted. DESIGN CHOICE
(log 73): a join that is pending, and a member that left after it arrived, count toward the 4,096 members of 03 R41. -/
def State.groupRequested (s : State) (home : Nat) (r : Req) (op : GroupOp) (gid : BitVec 16) : State × Option GroupAns :=
  let is (m : Member) : Bool := m.core == r.core && m.ctx == r.ctx && m.epoch == r.epoch
  let found := (s.core home).groups.find gid.toNat
  let me := found.bind fun g => g.members.find? is
  let arrive (bard wait : Bool) : State × Option GroupAns :=
    match found, me with
    | some g, some m =>
      if m.counted ∧ !m.arrived ∧ !m.leaving then
        (s.putGroup home gid (g.update is fun m =>
          { m with arrived := true, leaving := bard, waiter := if wait then some r.id else none }),
         if wait then none else some .ok)
      else (s, some .over)
    | _, _ => (s, some .over)
  let leave : State :=
    match found, me with
    | some g, some m =>
      if m.pending ∧ !m.leaving then s.putGroup home gid { g with members := g.members.filter fun x => !is x }
      else if m.arrived then s.putGroup home gid (g.update is fun m => { m with leaving := true, pending := false })
      else s.putGroup home gid { g with members := g.members.filter (fun x => !is x), expected := g.expected - 1 }
    | _, _ => s
  match op with
  | .join =>
    match found, me with
    | none, _ =>
      if (s.core home).groups.length < 64 then
        (s.putGroup home gid ⟨0#32, 1, [⟨r.core, r.ctx, r.epoch, false, false, false, none⟩]⟩, some .ok)
      else (s, some .full)
    | some g, some m =>
      if m.leaving then (s.putGroup home gid (g.update is fun m => { m with pending := true }), some .ok) else (s, some .ok)
    | some g, none =>
      if g.members.length < 4096 then
        let begun := g.members.any Member.arrived
        (s.putGroup home gid { g with
          members := g.members ++ [⟨r.core, r.ctx, r.epoch, false, false, begun, none⟩]
          expected := if begun then g.expected else g.expected + 1 }, some .ok)
      else (s, some .full)
  | .leave => (leave, some .ok)
  | .ended => (leave, none)
  | .barw => arrive false true
  | .bara => arrive false false
  | .bard => arrive true false
  | .barq => (s, some (.status (groupStatus found is)))

/-- A group request reaches its home core, which handles one at a time. -/
def execGroupRequest (id : Nat) (s : State) : Result :=
  .next (match s.req id with
    | some r =>
      match r.body, r.place with
      | .group op gid dst, .core home =>
        if s.mayRun r then
          match ((s.drop id).receive r.core home [gid.setWidth 32]).groupRequested home r op gid with
          | (t, some ans) => (t.sent home).answer r.core r.ctx r.epoch id (.groupAnswer gid ans dst)
          | (t, none) => t
        else s
      | _, _ => s
    | none => s)

/-- Write the answer of `barq` in the context that holds on it, once d can take it. -/
def State.writeHeld (s : State) (core ctx : Nat) (d : XName) (v : Word) : Option State :=
  let u := { s.loadLive core ctx with cur := (core, ctx) }
  match writeWord d v u with
  | .error .wait => none
  | r => some (s.live core ctx fun t =>
    match r with
    | .ok (_, u) => { u with cur := t.cur }.retireSeq core ctx
    | .error (.trap c a) => t.takeTrap core ctx c (t.thread core ctx).img.pc a false false
    | .error _ => t)

/-- Does an answer trap? -/
def GroupAns.traps : GroupAns → Bool
  | .over => true
  | .full => true
  | _ => false

/-- The answer reaches the task; one that traps waits until x29 has no pending producer (23 R325), and one that does more than end
the wait of a saved slot waits for CTXLD (R333). -/
def execGroupAnswer (id : Nat) (s : State) : Result :=
  .next (match s.req id with
    | some r =>
      match r.body with
      | .groupAnswer gid ans dst =>
        let t := s.thread r.core r.ctx
        let s' := (s.drop id).receive (s.homeOf r.core gid) r.core [gid.setWidth 32]
        if !s.present r ∨ t.slot.wait ≠ .answer id then s'
        else if (t.slot.saved ∧ ans ≠ .ok) ∨ (ans.traps ∧ (⟨s.liveImg r.core r.ctx, t.slot⟩ : Thread).pendingX 29#5) then s
        else
          match ans with
          | .ok => s'.retireHeld r.core r.ctx
          | .status v => (s'.writeHeld r.core r.ctx dst v).getD s
          | .over => s'.trapHeld r.core r.ctx Cause.barrierOver (gid.setWidth 64)
          | .full => s'.trapHeld r.core r.ctx Cause.groupFull (gid.setWidth 64)
      | _ => s
    | none => s)

end Sys2Proof.Machine
end

