-- ==== Sys2Proof/Machine/Msg.lean ====
section
/-!
DEFINITION. Msg.lean: messages and bindings (10 R200 to R203), what a core's interface and inbox do with messages (03 R36,
R37, 27 R393), the start of an activation (03 R26, R27), and `spawn` (03 R34, 10 R204).
-/

namespace Sys2Proof.Machine

/-! ## Sending (10 R200 to R202) -/

/-- A target register (10 R200, R202): the pair it names, a core of the partition. -/
def targetCore (v : Word) : Op Nat := do
  require (decide (v.toNat < 16384)) Cause.messageOperand 0#64
  let s ← get
  let pair := v.toNat
  require (s.grade.hasCore pair) Cause.mapAddress v
  require (s.samePart s.cur.1 pair) Cause.partitionBoundary v
  pure pair

/-- The messages of a core that its outbound queue and the network hold. -/
def State.outbound (s : State) (core : Nat) : List Req :=
  s.reqs.filter fun r => r.core == core && r.cls == some .m &&
    match r.body with
    | .message _ _ _ => true
    | _ => false

/-- Send a message: it waits at issue while the 8-entry outbound queue is full, and follows the core's earlier messages to
the same target (10 R202). -/
def sendMessage (target : Nat) (m : Msg) : Op Unit := do
  let s ← get
  let out := s.outbound s.cur.1
  await (decide (out.length < 8))
  let before := out.filter fun r =>
    match r.body with
    | .message t _ _ => t == target
    | _ => false
  set (s.sent s.cur.1)
  let _ ← pushReq (some .m) (.core target) (before.map Req.id) (.message target m none)
  pure ()

/-- The four words of a quad. -/
def quadWords (q : Quad) : List (BitVec 32) := (List.range 4).map fun i => q.extractLsb' (32 * i) 32

/-- The 32-bit words of a run of bytes. -/
def wordsOf : List Byte → List (BitVec 32)
  | b0 :: b1 :: b2 :: b3 :: bs => (b3 ++ b2 ++ b1 ++ b0) :: wordsOf bs
  | _ => []

def execSend (d : XName) (a : Src) (k : BitVec 8) : State → Result := plain (do
  let r ← readSrc2 ⟨d, false⟩ a
  require (k != 0#8) Cause.messageOperand 0#64
  let target ← targetCore (Quad.low r.1.val)
  sendMessage target ⟨k, BitVec.ofNat 14 (← get).cur.1, quadWords r.2.val, false⟩)

/-- `send.l` (10 R201): the payload is read at issue; with a reply, the window offset of d is appended. -/
def execSendL (d : XName) (b : Src) (k : BitVec 8) (a : Src) (n : BitVec 8) (reply : Bool) : State → Result := plain (do
  legal (reply || d == 0#5)
  if reply then destReady d
  let r ← readSrc2 b a
  require (k != 0#8) Cause.messageOperand 0#64
  let s ← get
  let bytes := (n.toNat + 1) * 4
  require (!reply || (bytes != 256 && d != 0#5 && s.cur.2 != 16)) Cause.messageOperand 0#64
  let target ← targetCore (Quad.low r.1.val)
  requireLocal r.2 0
  match ← accessCheck r.2 needL 0 bytes 4 with
  | .map _ => pure ()
  | .local o => do
    awaitLocal .r o bytes
    let s ← get
    let words := wordsOf (s.readBytes (ulmAddr s.cur.1 o) bytes)
    let word := BitVec.ofNat 32 (0x80000 + s.cur.2 * 0x1000 + d.toNat * 16)
    sendMessage target ⟨k, BitVec.ofNat 14 s.cur.1, if reply then words ++ [word] else words, false⟩
    if reply then do
      if (s.img.genOf d).isNone then
        let v := (← get).curThread.slot
        set ((← get).setSlot { v with replies := v.replies ++ [(d.toNat, target)] })
      awaitWindow d (some target))

/-! ## Bindings (10 R203) -/

/-- The class an instruction on the binding table names. -/
def bindClass (v : Word) : Op Nat := do
  require (decide (v.toNat < 256) && v != 0#64) Cause.messageOperand 0#64
  pure v.toNat

/-- The region of a binding: from d's cursor to its end, none for `x0`. With an offset past its length it is empty (DESIGN CHOICE,
log 83). -/
def bindRegion (d : XName) (r : XReg) : Op (Option Quad) := do
  if d = 0#5 then pure none
  else do
    requireLocal r 0
    require (Quad.hasL r.val && Quad.hasS r.val) Cause.capPermission 0#64
    pure (some (mkLinear 0b110000#6 (Quad.cursor r.val)
      (BitVec.ofNat 31 ((Quad.length r.val).toNat - (Quad.offset r.val).toNat)) 0#32))

/-- `bind` and `rebind`: one step changes the table (03 R37); the binding takes the issuer's mode (23 R321). -/
def bindingOp (again : Bool) (d : XName) (a : Src) (i : BitVec 11) : State → Result := plain (do
  let r ← readSrc2 a ⟨d, false⟩
  let cls ← bindClass (Quad.low r.1.val)
  let region ← bindRegion d r.2
  let s ← get
  let c := s.core s.cur.1
  require (again || (c.bindings.find cls).isNone) Cause.classBound (BitVec.ofNat 64 cls)
  let b : Binding := ⟨pcPlus s.img.pc (2 * i.toInt), region, s.img.mode⟩
  set (s.setCore s.cur.1 { c with bindings := c.bindings.set cls b }))

def execBind (d : XName) (a : Src) (i : BitVec 11) : State → Result := bindingOp false d a i
def execRebind (d : XName) (a : Src) (i : BitVec 11) : State → Result := bindingOp true d a i

def execUnbind (a : Src) : State → Result := plain (do
  let r ← readSrc a
  let cls ← bindClass (Quad.low r.val)
  let s ← get
  let c := s.core s.cur.1
  set (s.setCore s.cur.1 { c with bindings := c.bindings.del cls }))

/-! ## Arrival (03 R36) and compression (27 R393) -/

/-- Is a message accepted at arrival: its class is bound, or the unbound queue has room (03 R36)? -/
def Core.accepts (c : Core) (m : Msg) : Bool :=
  (c.bindings.find m.cls.toNat).isSome || decide (c.queues.unbound.length < 8)

/-- A message or a ULM atomic reaches the inbox of its core. While the inbox is full the network holds it. -/
def State.arrive (s : State) (r : Req) : State :=
  let enter (core : Nat) (i : InboxItem) (s : State) : State :=
    let c := s.core core
    (s.setQueues core { c.queues with inbox := c.queues.inbox ++ [i] }).wfiWake core fun _ => true
  if !s.mayRun r then s
  else
    match r.body with
    | .message core m refused =>
      let c := s.core core
      if 32 ≤ c.queues.inbox.length then s
      else if c.accepts m then
        let s := enter core (.msg m) (s.drop r.id)
        s.receive m.sender.toNat core m.words
      else s.replace { r with body := .message core m (some (refused.getD s.cycle)) }
    | .atomic a =>
      let core := a.addr / 1048576 % 16384
      if a.phys.isSome ∨ 32 ≤ (s.core core).queues.inbox.length ∨
          (s.core core).queues.inbox.any (fun i => i == .atomic r.id) then s
      else enter core (.atomic r.id) s
    | _ => s

def execMessageArrival (id : Nat) (s : State) : Result :=
  .next (match s.req id with
    | some r => s.arrive r
    | none => s)

/-- A refused message is tried again. -/
def execMessageRetry (id : Nat) (s : State) : Result :=
  .next (match s.req id with
    | some r =>
      match r.body with
      | .message _ _ (some _) => s.arrive r
      | _ => s
    | none => s)

/-- After 2^20 cycles of refusal the sender's interface drops the message and posts "unbound timeout". -/
def execUnboundTimeout (id : Nat) (s : State) : Result :=
  .next (match s.req id with
    | some r =>
      match r.body with
      | .message core m (some since) =>
        if since + 1048576 ≤ s.cycle then
          let s := s.drop id
          let c := s.core r.core
          let s := s.setCore r.core { c with regs := { c.regs with netCount := c.regs.netCount - 1 } }
          s.postError (s.partOf core) (coreRecord Cause.unboundTimeout core (m.cls.setWidth 64) (m.sender.setWidth 64))
        else s
      | _ => s
    | none => s)

/-- A receiver drops its least recently used mirror: the sender starts that dictionary anew (27 R393). -/
def execCompressionResetNotice (core : Nat) (s : State) : Result := .next (s.dropMirror core)

/-! ## Starting tasks (03 R21, R26, R27, R34) -/

/-- A full register. -/
def XReg.data (v : Quad) : XReg := ⟨v, false, true⟩
def XReg.cap (v : Quad) : XReg := ⟨v, true, true⟩

/-- The capability over a kernel's data area (02 R21, 28 R406). Without a placed kernel, as for an activation of a class that BIND
has left bound, it is untagged zero (DESIGN CHOICE, log 83). -/
def dataCap (k : Option Kernel) : XReg :=
  match k with
  | some k => .cap (mkLinear permLSC (BitVec.ofNat 57 k.dataBase) (BitVec.ofNat 31 k.dataSize) 0#32)
  | none => XReg.zero

/-- The stack capability of a slot (28 R406). The spec gives it no offset: it starts at offset 0 (DESIGN CHOICE, log 73). -/
def stackCap (k : Option Kernel) (slot : Nat) : XReg :=
  match k with
  | some k => .cap (mkLinear permLSC (BitVec.ofNat 57 (0x38000 - (slot + 1) * k.stack)) (BitVec.ofNat 31 k.stack) 0#32)
  | none => XReg.zero

def State.kernelOf (s : State) (k : Option Nat) : Option Kernel := k.bind s.kernels.find

/-- A context at the start of a task: the registers given, every other as R27 gives. -/
def startContext (pc : Ulm) (mode : Mode) (regs : List (Nat × XReg)) : Context :=
  { Context.zero with
    pc := pc
    mode := mode
    x := regs.foldl (fun x r => x.setIfInBounds r.1 r.2) Context.zero.x }

/-- Start an activation for a message under its binding. -/
def State.activate (s : State) (core : Nat) (m : Msg) (b : Binding) : State :=
  let c := s.core core
  let bytes := m.words.flatMap fun w => bytesOfNat 4 w.toNat
  let len := bytes.length
  let word (i : Nat) : XReg := .data ((m.words.getD i 0#32).setWidth 128)
  let regs : List (Nat × XReg) :=
    [(4, word 0), (5, word 1), (6, word 2), (7, word 3),
     (8, .data (BitVec.ofNat 128 (m.sender.toNat + m.cls.toNat * 2 ^ 14 + len * 2 ^ 22))),
     (3, (b.region.map XReg.cap).getD XReg.zero),
     (28, .cap (mkLinear 0b100000#6 0x3F700#57 (BitVec.ofNat 31 len) 0#32)),
     (31, dataCap (s.kernelOf c.kernel))]
  let t := s.thread core 16
  let slot := { Slot.free with status := .ready, kernel := c.kernel, epoch := t.slot.epoch + 1 }
  let s := s.writeBytes (ulmAddr core 0x3F700) bytes
  (s.setCore core { c with activation := some ⟨false, 0, 0, false⟩ }).setThread core 16 ⟨startContext b.pc b.mode regs, slot⟩

/-- A message taken from the inbox (03 R36): bound, it starts an activation; unbound, it moves to the unbound queue, or is
dropped and posted; a marked one is dropped with no error (15 R300). -/
def State.dequeueMsg (s : State) (core : Nat) (m : Msg) : State :=
  let c := s.core core
  match c.bindings.find m.cls.toNat with
  | some b => s.activate core m b
  | none =>
    if m.drop then s
    else if c.queues.unbound.length < 8 then s.setQueues core { c.queues with unbound := c.queues.unbound ++ [m] }
    else s.postError (s.partOf core)
      (coreRecord Cause.unboundOverflow core (m.cls.setWidth 64) (m.sender.setWidth 64))

/-- The unbound queue without its first message of a bound class, and that message. -/
def takeBound (c : Core) : List Msg → Option (Msg × List Msg)
  | [] => none
  | m :: ms =>
    if (c.bindings.find m.cls.toNat).isSome then some (m, ms)
    else (takeBound c ms).map fun r => (r.1, m :: r.2)

/-- The core takes its next message: first one of the unbound queue whose class has become bound, else the inbox's head.
While an activation runs, or pre-emption has begun (23 R335), none is taken. -/
def execMessageDequeue (core : Nat) (s : State) : Result :=
  let c := s.core core
  let q := c.queues
  .next (if c.activation.isSome ∨ c.regs.preStat ≠ 0#2 then s
    else
      match takeBound c q.unbound with
      | some (m, rest) => (s.setQueues core { q with unbound := rest }).dequeueMsg core m
      | none =>
        match q.inbox with
        | .msg m :: rest => (s.setQueues core { q with inbox := rest }).dequeueMsg core m
        | _ => s)

/-! ## `spawn` (03 R34, 10 R204) -/

/-- An argument register as the child receives it: a tag is kept on the caller's own core, or for a capability with G = 1. -/
def spawnArg (same : Bool) (r : XReg) : XReg := ⟨r.val, r.tag && (same || Quad.hasG r.val), true⟩

def execSpawn (d : XName) (a b : Src) : State → Result := finish (do
  notInHandler
  destReady d
  let r ← readSrc2 a b
  let target := Quad.low r.1.val
  let pc := Quad.low r.2.val
  require (decide (target.toNat < 16384) && decide (pc.toNat < 262144) && !pc.getLsbD 0) Cause.messageOperand 0#64
  let core ← targetCore target
  let a4 ← readPlainReg 4#5
  let a5 ← readPlainReg 5#5
  let a6 ← readPlainReg 6#5
  let a7 ← readPlainReg 7#5
  let s ← get
  let args := [a4, a5, a6, a7].map (spawnArg (core == s.cur.1))
  let dst ← lateDest d 8 false false
  set ((← get).sent (← get).cur.1)
  let id ← pushReq (some .m) (.core core) []
    (.spawn core (pc.setWidth 18) args s.img.mode s.curThread.slot.kernel dst)
  pure (.hold (.answer id)))
where
  /-- `x4` to `x7` are read like any source: an empty one is waited for. -/
  readPlainReg (r : XName) : Op XReg := readSrc ⟨r, false⟩

/-- The payload of a spawn request. -/
def spawnWords (pc : Ulm) (args : List XReg) : List (BitVec 32) :=
  pc.setWidth 32 :: args.flatMap fun x => (List.range 4).map fun i => x.val.extractLsb' (32 * i) 32

/-- A spawn request reaches its target: the free slot of the lowest number takes the child (DESIGN CHOICE, log 73: the spec
says a free slot), or there is none. -/
def execSpawnRequest (id : Nat) (s : State) : Result :=
  .next (match s.req id with
    | some r =>
      match r.body with
      | .spawn core pc args mode kernel dst =>
        if !s.mayRun r then s
        else
          let slot := (List.range 16).find? fun k =>
            (s.thread core k).slot.status == .free && !(s.thread core k).slot.held
          let s := ((s.receive r.core core (spawnWords pc args)).sent core).replace { r with body := .spawnAnswer slot core pc args mode kernel dst }
          match slot with
          | none => s
          | some k =>
            let kn := s.kernelOf kernel
            let regs := (2, stackCap kn k) :: (31, dataCap kn) :: (args.zipIdx.map fun e => (4 + e.2, e.1))
            s.startThread core k (startContext pc mode regs) kernel
      | _ => s
    | none => s)

/-- The caller runs the child inline (03 R34): `x1` receives the return PC after d. The loop test follows the SPAWN (R42, 09 R169),
so that the return PC is where the caller goes on; the child keeps the loop stack (R27), and the rule for transfers does not
touch it. -/
def State.runInline (s : State) (core ctx : Nat) (pc : Ulm) : State :=
  s.live core ctx fun s =>
    let t := s.thread core ctx
    let r := seqLoop t.img.pc (s.nextPc core t.img.pc) t.img.loops
    let back := r.2
    let img := ({ t.img with
      pc := pc, loops := r.1, x := t.img.x.set 1 (XReg.data (back.setWidth 128)), inlinePc := back, inlineValid := true } : Context)
    s.setThread core ctx { img := img.unwindow 1, slot := t.slot.wake }

/-- The answer reaches the caller. A spawn that would run inline while an inline return is pending asks again. -/
def execSpawnAnswer (id : Nat) (s : State) : Result :=
  .next (match s.req id with
    | some r =>
      match r.body with
      | .spawnAnswer slot target pc args mode kernel dst =>
        let back (s : State) : State := s.receive target r.core [BitVec.ofNat 32 (slot.getD 0xFFFFFFFF)]
        if !s.present r ∨ (s.thread r.core r.ctx).slot.wait ≠ .answer id then back (s.drop id)
        else if !s.mayDeliver dst ∨ ((s.thread r.core r.ctx).slot.saved ∧ slot.isNone) then s
        else
          match slot with
          | some k => ((back s).deliver r dst (bytesOfNat 8 k) false).retireHeld r.core r.ctx
          | none =>
            let img := s.liveImg r.core r.ctx
            if !img.x[1].full ∧ dst ≠ .x 1#5 8 false false then s
            else
              let s := back s
              if img.inlineValid then (s.sent r.core).replace { r with body := .spawn target pc args mode kernel dst }
              else (s.deliver r dst (List.replicate 8 255#8) false).runInline r.core r.ctx pc
      | _ => s
    | none => s)

end Sys2Proof.Machine
end

