-- ==== Sys2Proof/Machine/Dram.lean ====
section
/-!
DEFINITION. Dram.lean: DRAM bytes, their granules and codes (27 R382 to R391), and how a controller reads and writes.
-/

namespace Sys2Proof.Machine

/-- The key of a physical byte in the state's DRAM. -/
def dramKey (tier port phys : Nat) : Nat := tier * 18446744073709551616 + port * 1152921504606846976 + phys

/-- A tier-2 byte is one location whichever of the ports to its peer carries the access (27 R392). -/
def DramAt.key (p : DramAt) : Nat :=
  dramKey p.tier (if p.tier = 2 then (Config.peerOf (BitVec.ofNat 4 p.port)).toNat else 0) p.phys

/-- Bytes of a granule class (27 R382). -/
def granuleBytes (k : Nat) : Nat := 2 ^ (5 + k)

/-- The granule that an address lies in: its first byte. -/
def DramAt.base (p : DramAt) : Nat := p.phys / granuleBytes p.gran * granuleBytes p.gran

/-- Its sectors of 32 bytes, by number. -/
def DramAt.sectors (p : DramAt) : List Nat := (List.range (2 ^ p.gran)).map (p.base / 32 + ·)

/-- The groups of pseudo-channels present in a stack: the same number in every stack (29 R413). -/
def Grade.groupCount (g : Grade) : Nat := (g.groups.headD []).length

/-- The pseudo-channels of a stack: 16 for each group present. -/
def Grade.channels (g : Grade) : Nat := 16 * g.groupCount

/-- The number of stacks that a page lies on: the three of its die, or all twelve. -/
def DramAt.across (p : DramAt) : Nat := if p.inter then 12 else 3

/-- The die of a die-local page: one for a whole GiB, so that a page of any size lies on one die (06 R84). -/
def DramAt.die (p : DramAt) : Nat := (Config.dieOfFrame (p.phys / 1073741824)).toNat

/-- The stack of a tier-0 granule (27 R382). -/
def DramAt.stack (p : DramAt) : Nat :=
  let n := p.phys / granuleBytes p.gran
  if p.inter then n % 12 else p.die * 3 + n % 3

/-- The pseudo-channels of a granule's sectors, in order: q * 2^k + j, on the groups that the grade leaves (27 R382, 29 R413). -/
def DramAt.channels (p : DramAt) (g : Grade) : List Nat :=
  let q := p.phys / granuleBytes p.gran / p.across % (g.channels / 2 ^ p.gran)
  (List.range (2 ^ p.gran)).map fun j =>
    let c := q * 2 ^ p.gran + j
    (g.groups.getD p.stack []).getD (c / 16) 0 * 16 + c % 16

/-- The house core that performs the atomics on a byte (27 R392): its stack and its number there. -/
def DramAt.house (p : DramAt) (g : Grade) : Nat × Nat :=
  match p.tier with
  | 0 => (p.stack, (p.channels g).headD 0 / 16)
  | 1 => (0, 0)
  | _ => (p.port % 12, 3)

/-- The size of a page as its code (06 R84). -/
def DramAt.pageCode (p : DramAt) : Nat := if p.page = 65536 then 0 else if p.page = 2097152 then 1 else 2

/-- Is a pseudo-channel of a granule being calibrated anew? Its accesses wait (29 R415). -/
def State.calibrating (s : State) (p : DramAt) : Bool :=
  p.tier == 0 && s.updating fun u => match u with
    | .calibration stack channel => stack == p.stack && (p.channels s.grade).contains channel
    | _ => false

/-- Does the house core that performs the atomics on a location get new firmware? They wait (29 R415). -/
def State.houseWaits (s : State) (p : DramAt) : Bool :=
  s.updating fun u => match u with
    | .house stack house => (stack, house) == p.house s.grade
    | _ => false

/-- The granule, interleave and ECC mode of a mapping, as one number (27 R383), and above it the size of its page, which no such
difference counts. -/
def DramAt.layout (p : DramAt) : Nat :=
  1 + p.gran + 8 * p.inter.toNat + 16 * (p.tol.map fun f => f.toNat + 1).getD 0 + 512 * p.pageCode

/-- An access to a location under the mapping that it is stored under; under the access's own where nothing is stored. -/
def DramAt.under (p : DramAt) (layout : Nat) : DramAt :=
  let n := layout % 512 - 1
  if layout = 0 then p
  else { p with
    gran := n % 8, inter := n / 8 % 2 == 1, tol := if n / 16 = 0 then none else some (BitVec.ofNat 4 (n / 16 - 1))
    page := [65536, 2097152, 1073741824].getD (layout / 512) 65536 }

/-! ## Check bits (27 R384 to R388) -/

/-- Is a bit of a tolerant page critical (27 R388)? p is its address within the page. -/
def critical (fmt p : Nat) : Bool :=
  match fmt with
  | 0 => true
  | 1 => decide (23 ≤ p % 32)
  | 2 => decide (10 ≤ p % 16)
  | 3 => decide (7 ≤ p % 16)
  | 4 => decide (3 ≤ p % 8)
  | 10 => decide (3 ≤ p % 8)
  | 5 => decide (2 ≤ p % 8)
  | 11 => decide (2 ≤ p % 8)
  | 6 => decide (1 ≤ p % 4)
  | 14 => decide (1 ≤ p % 4)
  | 12 => decide (3 ≤ p % 6)
  | 13 => decide (2 ≤ p % 6)
  | _ => false

/-- The formats that no tolerant page may name. -/
def badTolerant (f : BitVec 4) : Bool := f == 7#4 || f == 8#4 || f == 9#4 || f == 15#4

/-- The columns of the Hsiao code's data bits: the 16-bit values of weight 3 in ascending order (27 R386). -/
def hsiaoColumns : List Nat :=
  (List.range 16).flatMap fun c => (List.range c).flatMap fun b => (List.range b).map fun a => 2 ^ a + 2 ^ b + 2 ^ c

/-- A list in pieces of eight. -/
def chunks8 {α : Type} : Nat → List α → List (List α)
  | 0, _ => []
  | n + 1, l => if l.isEmpty then [] else l.take 8 :: chunks8 n (l.drop 8)

/-- A set of numbers in rising order. -/
def sortNat (l : List Nat) : List Nat := l.foldr insertNat []

/-- The zero bits that fill up the last byte of packed bits (27 R388), by keys that no stored bit has. -/
def padKey : Nat := 2 ^ 100

def padded (data : List Nat) : List Nat := data ++ (List.range ((8 - data.length % 8) % 8)).map (padKey + ·)

/-- The bits in error after decoding, without those of the padding. -/
def unpadded (o : Option (List Nat)) : Option (List Nat) := o.map fun l => l.filter fun b => decide (b < padKey)

/-- The outcome of a SEC-DED codeword (27 R386) over its data and check bits, given the bits in error: the bits in error
after decoding, or none where it is uncorrectable. -/
def decodeSec (data check flips : List Nat) : Option (List Nat) :=
  let table := (padded data).zip hsiaoColumns ++ check.zipIdx.map fun e => (e.1, 2 ^ e.2)
  let syndrome : Nat := (table.filter fun e => flips.contains e.1).foldl (fun (x : Nat) e => x ^^^ e.2) 0
  if syndrome = 0 then some flips
  else
    unpadded ((table.find? fun e => e.2 == syndrome).map fun e =>
      if flips.contains e.1 then flips.filter (· != e.1) else insertNat e.1 flips)

/-- Multiplication in GF(2^8) with the polynomial 0x11D (27 R387). -/
def gfMul (a b : Nat) : Nat :=
  (List.range 8).reverse.foldl (fun (r : Nat) i =>
    let d : Nat := if 128 ≤ r then (2 * r) ^^^ 0x11D else 2 * r
    if b.testBit i then d ^^^ a else d) 0

/-- The generator (x - α^0) … (x - α^(n-1)), its coefficients from the highest degree down. -/
def rsGenerator (n : Nat) : List Nat :=
  ((List.range n).foldl (fun (e : List Nat × Nat) _ =>
    (List.zipWith (fun x y : Nat => x ^^^ y) (e.1 ++ [0]) (0 :: e.1.map (gfMul e.2)), gfMul e.2 2)) ([1], 1)).1

/-- The n check bytes of the systematic code: the remainder of the data, shifted up, by the generator. -/
def rsCheck (n : Nat) (data : List Nat) : List Nat :=
  data.foldl (fun (reg : List Nat) d =>
    let f : Nat := d ^^^ reg.headD 0
    List.zipWith (fun x y : Nat => x ^^^ y) (reg.tail ++ [0]) ((rsGenerator n).tail.map (gfMul f))) (List.replicate n 0)

/-- The bytes in error of symbols, given the bits in error. -/
def errorBytes (symbols : List (List Nat)) (flips : List Nat) : List Nat :=
  symbols.map fun y => y.zipIdx.foldl (fun (v : Nat) e => if flips.contains e.1 then v + 2 ^ e.2 else v) 0

/-- Could decoding leave these bits in error: does the pattern lie in the codeword, is it one of the code, and does it
differ from the pattern met in at most t symbols? -/
def mayMiscorrect (t : Nat) (data check : List (List Nat)) (mine left : List Nat) : Bool :=
  let symbols := data ++ check
  left.all (fun f => symbols.any fun y => y.contains f) &&
    rsCheck (2 * t) (errorBytes data left) == errorBytes check left &&
    decide ((((errorBytes symbols mine).zip (errorBytes symbols left)).filter fun e => e.1 != e.2).length ≤ t)

/-- The outcome of an RS codeword (27 R387) over its data and check symbols, each the bits of a byte: up to t bytes in error
are corrected, and more are uncorrectable or become another codeword's. -/
def decodeRs (t : Nat) (data check : List (List Nat)) (flips : List Nat) : Option (List Nat) :=
  let symbols := data ++ check
  let mine := flips.filter fun f => symbols.any fun y => y.contains f
  let others := flips.filter fun f => !mine.contains f
  if (symbols.filter fun y => y.any flips.contains).length ≤ t then some others
  else
    unpadded (((Config.rsBeyond mine).filter (mayMiscorrect t data check mine)).map fun l => sortNat (l ++ others))

/-- The bit keys of a check byte of a sector. -/
def checkBits (sector byte : Nat) : List Nat :=
  (List.range 8).map fun b => 1180591620717411303424 + (sector * 2 + byte) * 8 + b

/-- The data bits of a granule that its page covers, in order. -/
def DramAt.covered (p : DramAt) (base : Nat) : List Nat :=
  let bits := (List.range (8 * granuleBytes p.gran)).map (base * 8 + ·)
  match p.tol with
  | none => bits
  | some f => bits.filter fun b => critical f.toNat (b % (8 * p.page))

/-- Decode every codeword of a granule (27 R385, R389), given the bits in error. -/
def DramAt.decode (p : DramAt) (flips : List Nat) : Option (List Nat) :=
  let data := p.covered p.base
  let sectors := p.sectors
  if p.gran ≤ 1 then
    match p.tol with
    | none =>
      (sectors.zipIdx).foldl (fun o e => o.bind fun fl =>
        decodeSec ((data.drop (256 * e.2)).take 256) (checkBits e.1 0 ++ checkBits e.1 1) fl) (some flips)
    | some _ => decodeSec data (sectors.flatMap fun x => checkBits x 0) flips
  else
    let m := granuleBytes p.gran / 128
    let t := if p.tol.isSome then 2 else 4
    let bytes := chunks8 (data.length + 8) (padded data)
    let checks := sectors.flatMap fun x => if p.tol.isSome then [checkBits x 0] else [checkBits x 0, checkBits x 1]
    (List.range m).foldl (fun o i => o.bind fun fl =>
      decodeRs t ((bytes.zipIdx.filter fun e => e.2 % m == i).map Prod.fst) ((checks.drop (2 * t * i)).take (2 * t)) fl)
      (some flips)

/-! ## The controller (27 R389 to R391) -/

/-- A byte as read: the stored byte with its bits in error. -/
def State.dramByte (s : State) (key : Nat) : Byte :=
  let b : Byte := Assoc.get 0#8 s.dram key
  (s.flips.filter fun f => f / 8 == key).foldl (fun v f => v ^^^ BitVec.ofNat 8 (2 ^ (f % 8))) b

def State.dramBytes (s : State) (key n : Nat) : List Byte := (List.range n).map fun i => s.dramByte (key + i)

/-- Does a bit key belong to a granule? The second check byte of a tolerant page's sectors does not (27 R384). -/
def DramAt.inGranule (p : DramAt) (f : Nat) : Bool :=
  (decide (p.base ≤ f / 8) && decide (f / 8 < p.base + granuleBytes p.gran)) ||
    (decide (1180591620717411303424 ≤ f) && p.sectors.contains ((f - 1180591620717411303424) / 16) &&
      (p.tol.isNone || decide (f / 8 % 2 = 0)))

/-- Store a granule's bytes as they now read, and its check bits with them: no bit is in error any more. -/
def State.scrub (s : State) (p : DramAt) : State :=
  { s with
    dram := storeBytes s.dram p.base (s.dramBytes p.base (granuleBytes p.gran))
    flips := s.flips.filter fun f => !p.inGranule f }

/-- Post a record to the machine-check queue (24 R342). -/
def State.machineCheck (s : State) (r : CauseRecord) : State :=
  { s with service := { s.service with machineCheck := s.service.machineCheck ++ [{ r with time := s.time }] } }

/-- A bank's count after an activate (27 R391): at twice the level or more the refresh-management commands it waits for come
first, and reaching the level brings one. -/
def Hbm.activated (k : Hbm) (count : Nat) : Nat :=
  let twice := 2 * k.level.toNat
  let n := if twice ≤ count then count - k.credit.toNat * ((count - twice) / k.credit.toNat + 1) else count
  let n := n + 1
  Nat.min (if k.level.toNat ≤ n then n - k.credit.toNat else n) 4095

/-- A granule's banks are activated, one on each of its pseudo-channels: channel + 64 * bank. -/
def State.openBanks (s : State) (p : DramAt) : State :=
  let k := s.stack p.stack
  let bank := Config.bankOf p.stack (p.phys / granuleBytes p.gran)
  s.setStack p.stack { k with counts := (p.channels s.grade).foldl (fun m c =>
    Assoc.put 0 m (c + 64 * bank) (k.activated (Assoc.get 0 m (c + 64 * bank)))) k.counts }

/-- Is a granule of tier 0 stored under a mapping of another granule, interleave or ECC mode (27 R383)? -/
def State.foreign (s : State) (p : DramAt) : Bool :=
  p.sectors.any fun x => Assoc.get 0 s.layouts x != 0 && Assoc.get 0 s.layouts x % 512 != p.layout % 512

/-- A granule is stored under the mapping of an access. -/
def State.setLayout (s : State) (p : DramAt) : State :=
  { s with layouts := p.sectors.foldl (fun m x => Assoc.put 0 m x p.layout) s.layouts }

/-- An uncorrectable error is met: it is posted, and no data are returned (27 R389). -/
def State.uncorrectable (s : State) (p : DramAt) : State :=
  s.machineCheck ⟨Cause.uncorrectable, 0x3FFF#14, 3#2, 0#11, 0#64, BitVec.ofNat 64 p.phys, BitVec.ofNat 64 p.gran⟩

/-- The bytes of a granule become what a mapping that differs from the stored one finds: free values (27 R383). -/
def State.remap (s : State) (p : DramAt) : State :=
  let size := granuleBytes p.gran
  let t := { s with
    dram := storeBytes s.dram p.base ((List.range size).map fun k => Config.remapByte s.freeIx k)
    flips := s.flips.filter fun f => !p.inGranule f
    aliases := s.aliases.filter fun a => !(decide (p.base ≤ a.key) && decide (a.key < p.base + size))
    freeIx := s.freeIx + 1 }
  t.setLayout p

/-- The controller decodes a granule: the state after it, corrected data written back, and whether the data are good. Writing
back what no error was found in changes nothing that a read can tell. -/
def State.readGranule (s : State) (p : DramAt) : Bool × State :=
  let s := s.openBanks p
  if s.foreign p then if Config.remapFails s.freeIx then (false, s.uncorrectable p) else (true, s.remap p)
  else
    let mine := s.flips.filter p.inGranule
    if mine.isEmpty then (true, s)
    else
      match p.decode mine with
      | none => (false, s.uncorrectable p)
      | some left => (true, ({ s with flips := sortNat (left ++ s.flips.filter fun f => !p.inGranule f) } : State).scrub p)

/-! ## Two virtual addresses of one byte (07 R98, R108) -/

/-- The task that an access belongs to: core, context and epoch. An agent that is no task is written as a core that is none. -/
abbrev TaskId := Nat × Nat × Nat

def unitTask : TaskId := (16384, 0, 0)

def Req.task (r : Req) : TaskId := (r.core, r.ctx, r.epoch)

/-- The older values of a byte that a read through another virtual address may return, the newest first: back to a write that
the address sees already, or that the AFENCEs of both tasks join with the read. -/
def olderValues (key : Nat) (va : Nat × Nat) (joined : Bool) : List Alias → List Byte
  | [] => []
  | a :: l =>
    if a.key ≠ key then olderValues key va joined l
    else if a.seen.contains va || (a.joined && joined) then []
    else a.old :: olderValues key va joined l

/-- Byte i of an access is read; `joined` says that the reader's task has executed AFENCE before. It is the latest value, or where R108 leaves it open one of the older ones. -/
def State.readAlias (s : State) (joined : Bool) (p : DramAt) (i : Nat) : Byte × State :=
  let v := s.dramByte (p.key + i)
  let l := olderValues (p.key + i) (p.ctx, p.va + i) joined s.aliases
  if l.isEmpty then (v, s)
  else ((v :: l).getD (Config.olderValue s.freeIx % (l.length + 1)) v, { s with freeIx := s.freeIx + 1 })

def State.readAliases (s : State) (joined : Bool) (p : DramAt) : List Nat → List Byte × State
  | [] => ([], s)
  | i :: l =>
    let r := s.readAlias joined p i
    let t := State.readAliases r.2 joined p l
    (r.1 :: t.1, t.2)

/-- A write is seen at its own virtual address, and so is every write before it; the values it replaces are kept. -/
def State.noteWrite (s : State) (who : TaskId) (p : DramAt) (n : Nat) : State :=
  let va (key : Nat) : Nat × Nat := (p.ctx, p.va + (key - p.key))
  { s with aliases :=
      ((List.range n).map fun i => ⟨p.key + i, s.dramByte (p.key + i), [va (p.key + i)], who, false⟩) ++
        s.aliases.map fun a =>
          if p.key ≤ a.key ∧ a.key < p.key + n ∧ !a.seen.contains (va a.key) then { a with seen := va a.key :: a.seen } else a }

/-! ## Accesses -/

/-- Does the peer refuse a tier-2 access, as one outside the frames it grants (28 R398)? -/
def State.refused (s : State) (p : DramAt) : Bool × State :=
  if p.tier = 2 then (Config.peerRefuses s.freeIx, { s with freeIx := s.freeIx + 1 }) else (false, s)

/-- The bytes an access finds at its location are there to be read: granule decoded, or piece granted; or its cause. -/
def State.openDram (s : State) (p : DramAt) : Except (BitVec 7) Unit × State :=
  if p.tier = 0 then
    let r := s.readGranule p
    (if r.1 then .ok () else .error Cause.uncorrectable, r.2)
  else
    let r := s.refused p
    (if r.1 then .error Cause.protection else .ok (), r.2)

/-- Read n bytes that lie in one granule, or one piece of a link. -/
def State.dramRead (s : State) (joined : Bool) (p : DramAt) (n : Nat) : Except (BitVec 7) (List Byte) × State :=
  match s.openDram p with
  | (.ok _, s) =>
    let r := s.readAliases joined p (List.range n)
    (.ok r.1, r.2)
  | (.error c, s) => (.error c, s)

/-- Store bytes in a granule that is open: the rest of it is stored as it was read (27 R390). -/
def State.dramStore (s : State) (who : TaskId) (p : DramAt) (bs : List Byte) : State :=
  let s := s.noteWrite who p bs.length
  let s := if p.tier = 0 then (s.scrub p).setLayout p else s
  { s with dram := storeBytes s.dram p.key bs }

/-- Write bytes that lie in one granule or piece; a partial write of a granule reads first, and is not performed where that
fails. -/
def State.dramWrite (s : State) (who : TaskId) (p : DramAt) (bs : List Byte) : Except (BitVec 7) Unit × State :=
  match if p.tier = 0 ∧ bs.length = granuleBytes p.gran then (.ok (), s.openBanks p) else s.openDram p with
  | (.ok _, s) => (.ok (), s.dramStore who p bs)
  | (.error c, s) => (.error c, s)

/-- A read and a write in one access (27 R390, R392): the old bytes, and what they are replaced by, if by anything. The performer
is the byte's own, and sees its latest value. -/
def State.dramModify (s : State) (who : TaskId) (p : DramAt) (n : Nat) (f : List Byte → Option (List Byte)) :
    Except (BitVec 7) (List Byte) × State :=
  match s.openDram p with
  | (.ok _, s) =>
    let old := s.dramBytes p.key n
    (.ok old, match f old with
      | some new => s.dramStore who p new
      | none => s)
  | (.error c, s) => (.error c, s)

/-- The bytes from an address that one access may take: to the end of its granule, or of a link's 32-byte piece
(28 R397). -/
def DramAt.run (p : DramAt) : Nat :=
  let size := if p.tier = 0 then granuleBytes p.gran else 32
  size - p.phys % size

/-! ## The controller's own events -/

/-- A controller read of a granule of tier 0: class gran, and 0 for full mode or 1 + format for a tolerant page. -/
def dramPlace (addr gran tol : Nat) : DramAt :=
  ⟨256, addr, 0, 0, addr, gran, 0, true, if tol = 0 then none else some (BitVec.ofNat 4 (tol - 1)), 65536⟩

/-- The mapping that a location of tier 0 is stored under. -/
def State.layoutAt (s : State) (phys : Nat) : Nat := Assoc.get 0 s.layouts (phys / 32)

/-- A controller's access: in the interleave and page that the location is stored under, where its granule and mode are. -/
def State.controllerPlace (s : State) (addr gran tol : Nat) : DramAt :=
  let p := dramPlace addr gran tol
  let q := p.under (s.layoutAt addr)
  if q.gran = p.gran ∧ q.tol = p.tol then q else p

def execDramRead (addr gran tol : Nat) (s : State) : Result :=
  let p := s.controllerPlace addr gran tol
  .next (if gran ≤ 4 ∧ !s.calibrating p then (s.readGranule p).2 else s)

/-- A controller write of n bytes that stay within their granule. -/
def execDramWrite (addr gran tol n value : Nat) (s : State) : Result :=
  let p := s.controllerPlace addr gran tol
  .next (if gran ≤ 4 ∧ 0 < n ∧ n ≤ p.run ∧ !s.calibrating p then (s.dramWrite unitTask p (bytesOfNat n value)).2 else s)

/-- A periodic refresh of a bank (27 R391): pseudo-channel + 64 * bank. -/
def execPeriodicRefresh (stack bank : Nat) (s : State) : Result :=
  let k := s.stack stack
  .next (s.setStack stack { k with counts := Assoc.put 0 k.counts bank (Assoc.get 0 k.counts bank - k.credit.toNat) })

def execRfmLevelWrite (stack value : Nat) (s : State) : Result :=
  let v := value % 4096
  .next (if 16 ≤ v ∧ v ≤ 2047 then s.setStack stack { s.stack stack with level := BitVec.ofNat 12 v } else s)

def execRfmCreditWrite (stack value : Nat) (s : State) : Result :=
  let v := value % 4096
  .next (if 1 ≤ v ∧ v ≤ (s.stack stack).level.toNat then s.setStack stack { s.stack stack with credit := BitVec.ofNat 12 v }
    else s)

end Sys2Proof.Machine
end

