-- ==== Sys2Proof/Machine/Translate.lean ====
section
/-!
DEFINITION. Translate.lean: translation (25 R351 to R357), the fault tree (R358 to R362), and the partition's queues of
records (28 R396).
-/

namespace Sys2Proof.Machine

/-! ## TLBs (25 R351 to R353) -/

/-- The key of a TLB in the state. -/
def TlbId.key : TlbId → Nat
  | .core c => c
  | .copy st => 16384 + st
  | .trav st => 16544 + st
  | .raster d u => 16704 + d * 4 + u

def State.tlb (s : State) (t : TlbId) : Assoc TlbEntry := (s.tlbs.find t.key).getD []

def State.setTlb (s : State) (t : TlbId) (v : Assoc TlbEntry) : State := { s with tlbs := s.tlbs.set t.key v }

/-- The context of a core: its partition's number; 256, which no entry has, for a core in no partition. -/
def State.contextOf (s : State) (core : Nat) : Nat := (s.partOf core).getD 256

def State.contextOfStage (s : State) (st : Nat) : Nat := (s.partOfStage st).getD 256

/-- The bytes of an entry's page. -/
def TlbEntry.pageBytes (e : TlbEntry) : Nat :=
  match (e.bits.extractLsb' 125 2).toNat with
  | 0 => 65536
  | 1 => 2097152
  | _ => 1073741824

def TlbEntry.va (e : TlbEntry) : Nat := (e.bits.extractLsb' 16 41).toNat * 65536

def TlbEntry.covers (e : TlbEntry) (va : Nat) : Bool := va / e.pageBytes == e.va / e.pageBytes

/-- Do the pages of two entries overlap? -/
def TlbEntry.overlaps (e f : TlbEntry) : Bool := e.covers f.va || f.covers e.va

def State.lookup (s : State) (t : TlbId) (ctx va : Nat) : Option TlbEntry :=
  ((s.tlb t).find? fun e => e.2.ctx == ctx && e.2.covers va).map Prod.snd

/-- The permissions an access needs, L S A. -/
abbrev Perms := BitVec 3

/-- The outcome of a lookup. -/
inductive Look where
  | hit (p : DramAt)
  | cause (c : BitVec 7)
  | miss
  | busy                       -- the link of the page retrains (28 R400), or a pseudo-channel is calibrated anew (29 R415)
deriving DecidableEq, Repr

/-- The bytes of tier-0 data that a page's stacks hold (27 R384, 29 R413). -/
def Grade.capacity (g : Grade) (inter : Bool) : Nat := (if inter then 12 else 3) * (g.groupCount * 12 * 1006632960)

/-- The state of a tier's link for a partition: a weight of 0 makes it absent (28 R402). -/
def State.linkState (s : State) (part port : Nat) : BitVec 2 :=
  if Assoc.get 0 (s.part part).weights port = 0 then 3#2 else (s.link port).state

/-- Does a physical address lie in one of some ranges of 64 KiB frames? -/
def inFrames (l : List (Nat × Nat)) (phys : Nat) : Bool :=
  l.any fun f => decide (f.1 ≤ phys / 65536) && decide (phys / 65536 < f.1 + f.2)

/-- The checks of 25 R357 on an entry that a virtual address hits. -/
def State.checkEntry (s : State) (e : TlbEntry) (ctx va : Nat) (need : Perms) : Look :=
  let b := e.bits
  let tier := (b.extractLsb' 123 2).toNat
  let gran := (b.extractLsb' 120 3).toNat
  let order := (b.extractLsb' 118 2).toNat
  let fmt := b.extractLsb' 112 4
  let tol := b.getLsbD 116
  let phys := (b.extractLsb' 64 40).toNat * 65536 + va % e.pageBytes
  let port := if tier = 1 then 16 else (b.extractLsb' 104 4).toNat
  let bad := decide (tier = 3) || decide (order = 3) || (decide (tier = 0) &&
    (decide (4 < gran) || (tol && (decide (gran = 0) || badTolerant fmt)) || (!tol && fmt != 0#4) ||
      decide (s.grade.capacity (b.getLsbD 117) ≤ phys) || !inFrames (s.part ctx).frames phys))
  if b.getLsbD 108 then .cause Cause.pageFault
  else if bad then .cause Cause.translationFormat
  else if (b.extractLsb' 109 3 &&& need) ≠ need then .cause Cause.protection
  else if tier ≠ 0 ∧ (s.linkState ctx port = 0#2 ∨ s.linkState ctx port = 3#2) then .cause Cause.tierUnavailable
  else if tier ≠ 0 ∧ s.linkState ctx port = 1#2 then .busy
  else
    let p : DramAt :=
      ⟨ctx, va, tier, if tier = 2 then port else 0, phys, gran, order, b.getLsbD 117, if tol then some fmt else none, e.pageBytes⟩
    if s.calibrating p then .busy else .hit p

/-- The stage whose translation register serves a TLB's misses (25 R354). -/
def State.missStage (s : State) (t : TlbId) (ctx : Nat) : Nat :=
  match t with
  | .core c => stageOf c
  | .copy st => st
  | .trav st => st
  | .raster _ _ => (s.part ctx).stages.headD 0

/-- The service core and class of a stage, if its register is valid. -/
def State.service? (s : State) (st : Nat) : Option (Nat × BitVec 8) :=
  let r := (s.stage st).translation
  if r.getLsbD 14 ∧ r.extractLsb' 15 8 ≠ 0#8 then some ((r.extractLsb' 0 14).toNat, r.extractLsb' 15 8) else none

/-- Payload word 2 of a miss (25 R355): the requester as TLBW's s2 names it. -/
def TlbId.requester : TlbId → BitVec 32
  | .core c => BitVec.ofNat 32 c
  | .copy st => BitVec.ofNat 32 (2 ^ 30 + (engineName st 4).toNat)
  | .trav st => BitVec.ofNat 32 (2 ^ 30 + (engineName st 5).toNat)
  | .raster d u => BitVec.ofNat 32 (2 ^ 31 + u * 4 + d)

/-- The core that a miss or a record names, 0x3FFF for a unit. -/
def TlbId.core? : TlbId → BitVec 14
  | .core c => BitVec.ofNat 14 c
  | _ => 0x3FFF#14

/-- The agent and unit fields of a record (24 R342). -/
def TlbId.unit : TlbId → BitVec 2 × BitVec 11
  | .core _ => (0#2, 0#11)
  | .copy st => (1#2, engineName st 4)
  | .trav st => (1#2, engineName st 5)
  | .raster d u => (2#2, BitVec.ofNat 11 (u * 4 + d))

def TlbId.record (t : TlbId) (cause : BitVec 7) (d0 d1 : Word) : CauseRecord :=
  ⟨cause, t.core?, t.unit.1, t.unit.2, 0#64, d0, d1⟩

/-- Is a miss outstanding for a page? -/
def State.missing (s : State) (t : TlbId) (ctx page : Nat) : Bool :=
  s.reqs.any fun r =>
    match r.body with
    | .miss t' c p _ _ => t' == t && c == ctx && p == page
    | _ => false

/-- May a page be strongly ordered? One whose class no entry of the TLB gives counts as such, so that no access to it overtakes,
or is overtaken by, another that is (07 R107). -/
def State.maySO (s : State) (t : TlbId) (ctx va : Nat) : Bool :=
  match s.lookup t ctx va with
  | some e => e.bits.getLsbD 108 || (e.bits.extractLsb' 118 2).toNat == 1
  | none => true

/-- The first of some pages that no entry of a TLB gives, nor a miss in flight. -/
def State.unknownPage (s : State) (t : TlbId) (ctx : Nat) (l : List Nat) : Option Nat :=
  l.find? fun va => (s.lookup t ctx va).isNone && !s.missing t ctx (va / 65536)

/-- A lookup (25 R351, R354, R357): a later access to a page whose miss is outstanding waits on that miss (R355). -/
def State.look (s : State) (t : TlbId) (ctx va : Nat) (need : Perms) : Look :=
  match s.lookup t ctx va with
  | some e => s.checkEntry e ctx va need
  | none =>
    if (s.service? (s.missStage t ctx)).isNone && !s.missing t ctx (va / 65536) then .cause Cause.translationFormat else .miss

/-- A miss: one message to the service core, unless one is outstanding for the page (25 R355). -/
def State.startMiss (s : State) (t : TlbId) (ctx va : Nat) (need : Perms) : State :=
  let page := va / 65536
  if s.missing t ctx page then s
  else
    match s.service? (s.missStage t ctx) with
    | none => s
    | some (core, cls) =>
      let v : BitVec 57 := BitVec.ofNat 57 va
      let words := [v.extractLsb' 0 32, 0#4 ++ need ++ v.extractLsb' 32 25, t.requester, BitVec.ofNat 32 ctx]
      let src := match t with
        | .core c => c
        | _ => coreAt (s.missStage t ctx) 0 0
      let s := s.unitMessage src core ⟨cls, t.core?, words, false⟩
      s.push (Req.device src (.miss t ctx page va s.cycle))

/-- Entries of a context that cover a page leave a TLB; with only the fault entries, as a wake does (25 R362). -/
def State.dropEntries (s : State) (t : TlbId) (ctx : Nat) (p : TlbEntry → Bool) : State :=
  s.setTlb t ((s.tlb t).filter fun e => !(e.2.ctx == ctx && p e.2))

/-- The threads of a core that wait on a miss of a page look again (25 R355). -/
def State.wakeMiss (s : State) (core : Nat) (hit : Nat → Bool) : State :=
  (List.range 17).foldl (fun s k =>
    let t := s.thread core k
    match t.slot.wait with
    | .miss va => if t.slot.status = .blocked ∧ hit va then s.setThread core k { t with slot := t.slot.wake } else s
    | _ => s) s

/-- Install an entry (23 R332, 25 R353): it replaces every entry of its context that it overlaps, and answers the misses
it covers. -/
def State.install (s : State) (t : TlbId) (index : Nat) (e : TlbEntry) : State :=
  let s := s.dropEntries t e.ctx e.overlaps
  let s := s.setTlb t ((s.tlb t).set index e)
  let s := { s with reqs := s.reqs.filter fun r =>
    match r.body with
    | .miss t' c p _ _ => !(t' == t && c == e.ctx && e.covers (p * 65536))
    | _ => true }
  match t with
  | .core c => s.wakeMiss c e.covers
  | _ => s

/-! ## Rings of records (28 R396) -/

/-- The producer, consumer and dropped fields of a pointer register. -/
def ringProducer (p : BitVec 56) : Nat := (p.extractLsb' 0 20).toNat
def ringConsumer (p : BitVec 56) : Nat := (p.extractLsb' 20 20).toNat
def ringDropped (p : BitVec 56) : Nat := (p.extractLsb' 40 16).toNat

def ringPtr (dropped consumer producer : Nat) : BitVec 56 :=
  BitVec.ofNat 16 dropped ++ BitVec.ofNat 20 consumer ++ BitVec.ofNat 20 producer

/-- The number of records of a ring. -/
def ringEntries (base : BitVec 61) : Nat := ringBytes base / 32

def ringFull (base : BitVec 61) (p : BitVec 56) : Bool :=
  decide ((ringProducer p + 1048576 - ringConsumer p) % 1048576 = ringEntries base)

/-- One more record dropped, saturating. -/
def ringDrop (p : BitVec 56) : BitVec 56 :=
  ringPtr (Nat.min (ringDropped p + 1) 65535) (ringConsumer p) (ringProducer p)

def ringNext (p : BitVec 56) : BitVec 56 := ringPtr (ringDropped p) (ringConsumer p) (ringProducer p + 1)

/-! ## The fault tree (25 R358 to R362) -/

/-- The root router of a partition: the service core of its first stage. -/
def State.rootOf (s : State) (part : Nat) : Nat :=
  let st := (s.part part).stages.headD 0
  ((s.service? st).map Prod.fst).getD (coreAt st 0 0)

/-- The ports W, E, N, S and L of a router are 0 to 4. A router's parent, and the port it hears this router on. -/
def parentOf (root r : Nat) : Nat × Nat :=
  if colOf root < colOf r then (r - 1, 1)
  else if colOf r < colOf root then (r + 1, 0)
  else if rowOf root < rowOf r then (r - 128, 3)
  else (r + 128, 2)

/-- The router beyond a port. -/
def beyond (r port : Nat) : Nat :=
  match port with
  | 0 => r - 1
  | 1 => r + 1
  | 2 => r - 128
  | _ => r + 128

/-- A fault enters the tree: at a core's own router, at its stage's first core, or at the root. -/
def State.enterFault (s : State) (t : TlbId) (ctx va : Nat) (need : Perms) (agent : Agent) : State :=
  let router := match t with
    | .core c => c
    | .copy st => coreAt st 0 0
    | .trav st => coreAt st 0 0
    | .raster _ _ => s.rootOf ctx
  let r := t.record Cause.pageFault (BitVec.ofNat 64 va) (BitVec.ofNat 64 ctx ||| (need.setWidth 64 <<< 8))
  s.push (Req.device router (.fault router 4 ctx (va / 65536) r agent))

/-- Does a partition's pager record wait at the root, for room in its queue or for the queue's registers (28 R396)? -/
def State.pagerWaits (s : State) (part : Nat) : Bool :=
  let p := s.part part
  s.reqs.any fun q =>
    match q.body with
    | .pagerPost k _ stalled => k == part && (stalled || ringFull p.pgBase p.pgPtr)
    | _ => false

/-- A fault at a router (25 R359): joins an entry, makes one and climbs, or waits. At the root it posts the pager's record, and
waits behind one that waits there. -/
def execFaultClimb (id : Nat) (s : State) : Result :=
  .next (match s.req id with
    | some q =>
      match q.body with
      | .fault router port ctx page r agent =>
        let c := s.core router
        let agents := if port = 4 then [agent] else []
        let bit : BitVec 5 := BitVec.ofNat 5 (2 ^ port)
        if c.routes.any fun e => e.ctx == ctx && e.page == page then
          (s.drop id).setCore router { c with routes := c.routes.map fun e =>
            if e.ctx = ctx ∧ e.page = page then { e with mask := e.mask ||| bit, agents := e.agents ++ agents } else e }
        else if c.routes.length < 32 ∧ !(router = s.rootOf ctx ∧ s.pagerWaits ctx) then
          let s := s.setCore router { c with routes := c.routes ++ [⟨ctx, page, bit, agents⟩] }
          let root := s.rootOf ctx
          if router = root then (s.drop id).push (Req.device router (.pagerPost ctx { r with time := s.time } false))
          else
            let p := parentOf root router
            s.replace { q with body := .fault p.1 p.2 ctx page r agent }
        else s
      | _ => s
    | none => s)

/-- The pager's wake reaches the root (25 R360). -/
def State.pagerWake (s : State) (ctx page : Nat) (deny : Bool) : State :=
  let root := s.rootOf ctx
  if (s.core root).routes.any fun e => e.ctx == ctx && e.page == page then
    s.push (Req.device root (.routerWake root ctx page deny))
  else s

def execPagerWake (part ctx page deny : Nat) (s : State) : Result :=
  .next (if part = ctx then s.pagerWake ctx page (deny != 0) else s)

/-- A wake at a router (25 R362): out on every port of the entry's mask, and the entry is freed. -/
def execRouterWake (id : Nat) (s : State) : Result :=
  .next (match s.req id with
    | some q =>
      match q.body with
      | .routerWake router ctx page deny =>
        let s := s.drop id
        let c := s.core router
        match c.routes.find? fun e => e.ctx == ctx && e.page == page with
        | none => s
        | some e =>
          let s := s.setCore router { c with routes := c.routes.filter fun f => !(f.ctx == ctx && f.page == page) }
          let s := (List.range 4).foldl (fun s p =>
            if e.mask.getLsbD p then s.push (Req.device router (.routerWake (beyond router p) ctx page deny)) else s) s
          e.agents.foldl (fun s a => s.push (Req.device router (.agentWake a ctx page deny))) s
      | _ => s
    | none => s)

/-! ## The queues of records (24 R342, 28 R396) -/

/-- The 32 bytes of a record. -/
def CauseRecord.bytes (r : CauseRecord) : List Byte :=
  bytesOfNat 4 (r.cause.toNat + r.core.toNat * 65536 + r.agent.toNat * 2 ^ 30) ++ bytesOfNat 4 r.unit.toNat ++
    bytesOfNat 8 r.time.toNat ++ bytesOfNat 8 r.detail0.toNat ++ bytesOfNat 8 r.detail1.toNat

/-- The virtual address of the next record. -/
def ringSlot (base : BitVec 61) (p : BitVec 56) : Nat := ringBase base + 32 * (ringProducer p % ringEntries base)

/-- Write a record through the copy engine of the partition's first stage: performed, or failed with its cause; none while it
is put off by a miss, which is sent, or by a link that retrains. -/
def State.writeRecord (s : State) (part va : Nat) (r : CauseRecord) : Option (Except (BitVec 7) Unit) × State :=
  let t := TlbId.copy ((s.part part).stages.headD 0)
  match s.look t part va 2#3 with
  | .hit p =>
    let w := s.dramWrite unitTask p r.bytes
    (some w.1, w.2)
  | .cause c => (some (.error c), s)
  | .miss => (none, s.startMiss t part va 2#3)
  | .busy => (none, s)

/-- The machine-check record of a failed record write. -/
def failedRecord (st va : Nat) (cause : BitVec 7) (pager : Bool) : CauseRecord :=
  ⟨Cause.dramTransfer, 0x3FFF#14, 1#2, engineName st 4, 0#64, BitVec.ofNat 64 va, BitVec.ofNat 64 (cause.toNat + if pager then 256 else 0)⟩

/-- A record of the partition's error queue is written; a full queue or a failed write drops it. -/
def execQueueRecordWrite (id : Nat) (s : State) : Result :=
  .next (match s.req id with
    | some q =>
      match q.body with
      | .post part r =>
        let p := s.part part
        if ringFull p.errBase p.errPtr then (s.drop id).setPart part { p with errPtr := ringDrop p.errPtr }
        else
          let va := ringSlot p.errBase p.errPtr
          match s.writeRecord part va r with
          | (some (.ok _), s) => (s.drop id).setPart part { s.part part with errPtr := ringNext p.errPtr }
          | (some (.error c), s) => ((s.drop id).setPart part { s.part part with errPtr := ringDrop p.errPtr }).machineCheck
              (failedRecord (p.stages.headD 0) va c false)
          | (none, s) => s
      | _ => s
    | none => s)

/-- Does an earlier record of a partition's pager queue wait? -/
def State.pagerBefore (s : State) (part id : Nat) : Bool :=
  s.reqs.any fun q => decide (q.id < id) &&
    match q.body with
    | .pagerPost k _ _ => k == part
    | _ => false

/-- Is a record the one that its partition's queue writes next: the oldest, with room for it (28 R396)? -/
def State.nextRecord (s : State) (q : Req) : Bool :=
  let before (f : Body → Bool) : Bool := s.reqs.any fun r => decide (r.id < q.id) && f r.body
  match q.body with
  | .post part _ =>
    !ringFull (s.part part).errBase (s.part part).errPtr && !before fun b => match b with
      | .post k _ => k == part
      | _ => false
  | .pagerPost part _ stalled =>
    !stalled && !ringFull (s.part part).pgBase (s.part part).pgPtr && !s.pagerBefore part q.id
  | _ => false

/-- A record of the pager queue is written, in the order of the records; a full queue, or a failed write until the registers
change, keeps it waiting. -/
def execPgqWrite (id : Nat) (s : State) : Result :=
  .next (match s.req id with
    | some q =>
      match q.body with
      | .pagerPost part r false =>
        let p := s.part part
        if ringFull p.pgBase p.pgPtr ∨ s.pagerBefore part id then s
        else
          let va := ringSlot p.pgBase p.pgPtr
          match s.writeRecord part va r with
          | (some (.ok _), s) => (s.drop id).setPart part { s.part part with pgPtr := ringNext p.pgPtr }
          | (some (.error c), s) => (s.replace { q with body := .pagerPost part r true }).machineCheck
              (failedRecord (p.stages.headD 0) va c true)
          | (none, s) => s
      | _ => s
    | none => s)

/-- A write to the pager queue's registers has a failed record written again. -/
def State.unstall (s : State) (part : Nat) : State :=
  { s with reqs := s.reqs.map fun q =>
    match q.body with
    | .pagerPost p r true => if p = part then { q with body := .pagerPost p r false } else q
    | _ => q }

/-- The 64 KiB pages that n bytes from a virtual address on touch, as addresses within them. -/
def pagesFrom (va n : Nat) : List Nat :=
  (List.range ((va + n + 65535) / 65536 - va / 65536)).map fun k => if k = 0 then va else ((va / 65536 + k) * 65536) % 2 ^ 57

end Sys2Proof.Machine
end

