-- ==== Sys2Proof/Machine/Engine.lean ====
section
/-!
DEFINITION. Engine.lean: tile-task records and their submission (12 R243 to R245, 13 R258), the start gate (26 R373 to R375),
the running of a task (12 R246 to R249) over its operand streams (R239 to R242), and the scale keeper (R251, R252).
-/

namespace Sys2Proof.Machine

/-! ## Records (12 R243) -/

/-- A field of a record: n bits from bit lo of word i. -/
def recField (w : List (BitVec 32)) (i lo n : Nat) : Nat := (w.getD i 0#32).toNat / 2 ^ lo % 2 ^ n

def Task.tag (t : Task) : Nat := recField t.words 0 16 16
def Task.acc (t : Task) : Nat := recField t.words 0 12 4
def Task.anyEngine (t : Task) : Bool := recField t.words 0 11 1 == 1
def Task.drain (t : Task) : Bool := recField t.words 0 10 1 == 1
def Task.scaleMode (t : Task) : Nat := recField t.words 0 8 2
def Task.priority (t : Task) : Nat := recField t.words 0 6 2
def Task.accumulate (t : Task) : Bool := recField t.words 0 5 1 == 1
def Task.barrier (t : Task) : Bool := recField t.words 0 4 1 == 1
def Task.opcode (t : Task) : Nat := recField t.words 0 0 4
def Task.cols (t : Task) : Nat := recField t.words 1 16 16
def Task.rows (t : Task) : Nat := recField t.words 1 0 16
def Task.channel (t : Task) : Nat := recField t.words 2 24 2
def Task.bFormat (t : Task) : Nat := recField t.words 2 20 4
def Task.aFormat (t : Task) : Nat := recField t.words 2 16 4
def Task.depth (t : Task) : Nat := recField t.words 2 0 16
def Task.col0 (t : Task) : Nat := recField t.words 3 24 7
def Task.row0 (t : Task) : Nat := recField t.words 3 16 7
def Task.bStream (t : Task) : Nat := recField t.words 3 8 8
def Task.aStream (t : Task) : Nat := recField t.words 3 0 8

/-- The valid predecessors' tags. -/
def Task.predecessors (t : Task) : List Nat :=
  (if recField t.words 5 0 1 = 1 then [recField t.words 4 0 16] else []) ++
    if recField t.words 5 1 1 = 1 then [recField t.words 4 16 16] else []

def Task.drainFormat (t : Task) : Nat := recField t.words 6 20 4
def Task.drainTile (t : Task) : Nat := recField t.words 6 14 6
def Task.drainCore (t : Task) : Nat := recField t.words 6 0 14
def Task.counts (t : Task) : Bool := recField t.words 7 20 1 == 1
def Task.counter (t : Task) : Nat := recField t.words 7 14 6
def Task.counterCore (t : Task) : Nat := recField t.words 7 0 14

/-- The groups of an SBP task's K. -/
def Task.groups (t : Task) : Nat := t.depth / 128

/-- The first word offset, lowest first, at which a check of a list fails. -/
def firstFail (l : List (Nat × Bool)) : Option Nat :=
  (l.filter Prod.snd).foldl (fun (o : Option Nat) e => some (o.elim e.1 fun x => Min.min x e.1)) none

/-- The K, region and evenness rules (12 R244, R245 step 2; 13 R258). -/
def Task.dimensionFail (t : Task) : Option Nat :=
  firstFail
    [(0x04, decide (128 < t.rows) || decide (128 < t.cols) ||
        (t.opcode == 1 && t.bFormat == 0 && decide (8 < t.cols * t.groups))),
     (0x08, ((t.opcode == 2 || t.opcode == 3) && t.depth != 0) ||
        (t.opcode == 0 && t.scaleMode == 2 && t.depth % 32 != 0) ||
        (t.opcode == 0 && t.scaleMode == 1 && t.aFormat == 6 && t.bFormat == 6 && t.depth % 2 != 0) ||
        (t.opcode == 1 && t.depth % 128 != 0)),
     (0x0C, decide (128 < t.row0 + t.rows) || decide (128 < t.col0 + t.cols))]

/-- Is a pair of formats one that GEMM takes in a scale mode? -/
def gemmFormats (mode a b : Nat) : Bool :=
  let fp8 (f : Nat) : Bool := f == 4 || f == 5
  match mode with
  | 0 => (a == 3 && b == 3) || (fp8 a && fp8 b)
  | 1 => (fp8 a && fp8 b) || (a == 6 && b == 6)
  | 2 => isMx a && isMx b
  | _ => false

/-- The other rules (12 R243, R244, R245 step 3; 13 R258; 29 R413); `busy` says that the tag is in use. -/
def Task.recordFail (t : Task) (busy engineAbsent : Bool) : Option Nat :=
  let w (i : Nat) : Nat := recField t.words i 0 32
  firstFail
    [(0x00, busy || engineAbsent || decide (3 < t.opcode) || t.scaleMode == 3 ||
        (t.anyEngine && (t.accumulate || !t.drain || decide (3 < t.acc))) ||
        (t.opcode == 1 && (decide (1 < t.scaleMode) || (t.bFormat == 0 && t.anyEngine))) ||
        ((t.opcode == 2 || t.opcode == 3) && (t.scaleMode != 0 || t.accumulate || (t.opcode == 3 && !t.drain)))),
     (0x08, w 2 / 2 ^ 26 != 0 || (t.scaleMode != 1 && t.channel != 0) ||
        (t.opcode == 0 && !gemmFormats t.scaleMode t.aFormat t.bFormat) ||
        (t.opcode == 1 && (!([3, 4, 5, 7].contains t.aFormat) || !(t.bFormat == 0 || t.bFormat == 15))) ||
        ((t.opcode == 2 || t.opcode == 3) && (t.aFormat != 0 || t.bFormat != 0))),
     (0x0C, recField t.words 3 31 1 != 0 || recField t.words 3 23 1 != 0 ||
        (t.opcode == 0 && t.scaleMode == 0 && t.aFormat == 3 && t.bFormat == 3 && t.aStream == t.bStream) ||
        (t.opcode == 1 && ((t.bFormat == 15 && t.aStream == t.bStream) || (t.bFormat == 0 && t.bStream / 8 != 0))) ||
        ((t.opcode == 2 || t.opcode == 3) && (t.aStream != 0 || t.bStream != 0))),
     (0x14, w 5 / 4 != 0),
     (0x18, w 6 / 2 ^ 24 != 0 || (!t.drain && w 6 != 0) ||
        (t.drain && !(decide (1 ≤ t.drainFormat) && decide (t.drainFormat ≤ 14)))),
     (0x1C, w 7 / 2 ^ 21 != 0),
     (0x20, (t.words.drop 8).any fun x => x != 0#32)]

/-- Step 4 of R245: the cores a record names are cores of the partition. -/
def taskCore (used : Bool) (pair off : Nat) : Op Unit := do
  let addr : Word := BitVec.ofNat 64 off
  if used then do
    let s ← get
    require (s.grade.hasCore pair) Cause.mapAddress addr
    require (s.samePart s.cur.1 pair) Cause.partitionBoundary addr

/-- Read an aligned 64-byte record at a capability's cursor (12 R245, R253). -/
def readRecord (a : Src) : Op (List (BitVec 32)) := do
  let r ← readSrc a
  requireLocal r 0
  match ← accessCheck r needL 0 64 64 with
  | .map _ => pure []
  | .local o => do
    awaitLocal .m o 64
    let s ← get
    pure (wordsOf (s.readBytes (ulmAddr s.cur.1 o) 64))

/-- The tag of a predecessor that is known to have faulted, when a task is submitted: the scheduler remembers the last 64 tasks
that ended (12 R249, R250). -/
def Stage.faultedPredecessor (g : Stage) (t : Task) : Option Nat :=
  t.predecessors.find? fun p => !(g.tasks.any fun x => x.tag == p) &&
    (g.ended.find? fun x => x.tag == p).any fun x => x.status == 4#3

def execTsub (a : Src) : State → Result := plain (do
  let w ← readRecord a
  let s ← get
  let st := stageOf s.cur.1
  let g := s.stage st
  let t : Task :=
    { words := w, submitter := s.cur.1, seq := g.seq, acceptedAt := s.cycle, admitted := false, status := 1#3, cause := 0#7
      engine := 0, block := 0, counted := false, filling := false, doomed := none }
  let t := { t with doomed := g.faultedPredecessor t }
  await (decide (g.tasks.length < 256))
  match t.dimensionFail with
  | some off => trap Cause.dimension (BitVec.ofNat 64 off)
  | none => pure ()
  match t.recordFail (g.tasks.any fun x => x.tag == t.tag) (!t.anyEngine && !s.grade.hasEngine st (t.acc / 4)) with
  | some off => trap Cause.taskRecord (BitVec.ofNat 64 off)
  | none => pure ()
  taskCore t.drain t.drainCore 0x18
  taskCore t.counts t.counterCore 0x1C
  set (s.setStage st { g with tasks := g.tasks ++ [t], seq := g.seq + 1 }))

/-- The status word of a tag (12 R250): a task not ended first, then the newest that ended. -/
def Stage.query (g : Stage) (tag : Nat) : Word :=
  match (g.tasks.find? fun t => t.tag == tag).or (g.ended.find? fun t => t.tag == tag) with
  | none => 0#64
  | some t =>
    let cause := if t.status = 4#3 then t.cause else 0#7
    let engine : BitVec 3 := if t.status = 1#3 then 0#3 else BitVec.ofNat 3 t.engine
    0#48 ++ cause ++ 0#2 ++ engine ++ 0#1 ++ t.status

def execTqry (d : XName) (a : Src) : State → Result := plain (do
  destReady d
  let r ← readSrc a
  let v := Quad.low r.val
  require (v.extractLsb' 16 48 == 0#48) Cause.engineOperand 0#64
  unitRequest
  let s ← get
  writeWord d ((s.stage (stageOf s.cur.1)).query v.toNat))

/-! ## The scale keeper (12 R251, R252) -/

/-- The buffer a channel's fill or consume pointer names, and whether it is full. -/
def Channel.fillFull (c : Channel) : Bool := if c.fill then c.full1 else c.full0
def Channel.consumeFull (c : Channel) : Bool := if c.consume then c.full1 else c.full0

def State.setChannel (s : State) (st c : Nat) (v : Channel) : State :=
  s.setStage st { s.stage st with channels := Assoc.put Channel.reset (s.stage st).channels c v }

/-- Write sixteen lanes at entry 16g of the buffer that is being filled; the last group makes it full. -/
def Channel.broadcast (c : Channel) (g : Nat) (v : Vec) (last : Bool) : Channel :=
  let at' := c.fill.toNat * 128 + 16 * g
  let entries := (List.range 16).foldl (fun m i => Assoc.put Channel.unwritten m (at' + i) (v.extractLsb' (32 * i) 32)) c.entries
  if last then
    { c with entries := entries, full0 := c.full0 || !c.fill, full1 := c.full1 || c.fill, fill := !c.fill }
  else { c with entries := entries }

/-- A buffer has been consumed: it is free, its entries read as the canonical NaN, and the pointer moves on. -/
def Channel.release (c : Channel) : Channel :=
  { c with
    entries := c.entries.filter fun e => (e.1 / 128 == 1) != c.consume
    full0 := c.full0 && c.consume
    full1 := c.full1 && !c.consume
    consume := !c.consume }

def execSkbc (a : Src) (b : VName) (w : Bool) : State → Result := plain (do
  sourceReady a
  let v ← readVec b w
  let r ← readSrc a
  let x := Quad.low r.val
  require (x.extractLsb' 8 56 == 0#56 && x.extractLsb' 2 2 == 0#2) Cause.engineOperand 0#64
  let n := (x.extractLsb' 0 2).toNat
  let s ← get
  let st := stageOf s.cur.1
  let g := s.stage st
  require (g.keeper.getLsbD 14 && (g.keeper.extractLsb' 0 14).toNat == s.cur.1) Cause.notScaleKeeper (BitVec.ofNat 64 n)
  unitRequest
  let c := g.channel n
  await (!c.fillFull)
  set (s.setChannel st n (c.broadcast (x.extractLsb' 4 3).toNat v (x.getLsbD 7))))

/-! ## Starting tasks (12 R246) -/

/-- The promotion block of a task, in elements along K (05 R75). -/
def Task.blockSize (t : Task) : Nat := if t.opcode = 0 ∧ t.aFormat = 3 then 32 else 128

/-- Does a task compute over operands? -/
def Task.computes (t : Task) : Bool := decide (t.opcode ≤ 1) && decide (0 < t.rows) && decide (0 < t.cols)

/-- The promotion blocks of a task. -/
def Task.blocks (t : Task) : Nat := if t.computes then (t.depth + t.blockSize - 1) / t.blockSize else 0

/-- The streams a task claims (12 R241, R247; 13 R258). -/
def Task.streams (t : Task) : List Nat :=
  if !t.computes then [] else if t.opcode = 1 ∧ t.bFormat = 0 then [t.aStream] else [t.aStream, t.bStream]

/-- A task's level (26 R373). -/
def Task.level (t : Task) : Nat :=
  if 2 ≤ t.opcode then 1 else if t.opcode = 1 ∨ 6 ≤ t.aFormat then 4 else if t.aFormat = 3 then 2 else 3

/-- Is a hold still in force: does its task stand where it waits? -/
def State.holdLive (s : State) (h : Hold) : Bool :=
  let v := (s.thread h.core h.ctx).slot
  v.status != .free && v.epoch == h.epoch && (s.liveImg h.core h.ctx).pc == h.pc

def State.holds (s : State) (st : Nat) : List Hold := (s.stage st).holds.filter s.holdLive

/-- Is a task one that an SBPLD waits for? -/
def Hold.waitsFor (h : Hold) (t : Task) : Bool := h.load && t.submitter == h.core && decide (t.seq < h.seq)

/-- Do the holds on an engine let a task start there? Where only SBPLDs wait, the tasks that the first of them waits for may,
and while it has any to wait for, those that the first SBPLD of the stage waits for (log 21). -/
def State.holdsAllow (s : State) (st e : Nat) (t : Task) : Bool :=
  let loads := (s.holds st).filter Hold.load
  ((s.holds st).all fun h => h.load || h.engine != e) &&
    match loads.filter fun h => h.engine == e with
    | [] => true
    | h :: _ => h.waitsFor t || ((s.stage st).tasks.any h.waitsFor && loads.head?.any fun f => f.waitsFor t)

/-- May a task start on an engine as far as the engine goes? One that the gate has admitted there comes first, unless holds keep
it back. -/
def State.engineOpen (s : State) (st e : Nat) (t : Task) : Bool :=
  s.grade.hasEngine st e && ((s.stage st).engine e).running.isNone && s.holdsAllow st e t &&
    (s.stage st).tasks.all fun x =>
      !(x.status == 1#3 && x.admitted && x.engine == e && x.seq != t.seq && s.holdsAllow st e x)

/-- The step of a task on an engine. -/
def Task.step (t : Task) (e : Engine) : Nat := (t.level - e.level) + (e.level - t.level)

/-- The engine a task would take: the named one, or of the free ones that with the smallest step, and then the lowest. -/
def State.chooseEngine (s : State) (st : Nat) (t : Task) : Option Nat :=
  let open' := ((if t.anyEngine then List.range 4 else [t.acc / 4]).filter fun e => s.engineOpen st e t)
  open'.foldl (fun o e =>
    match o with
    | none => some e
    | some f => if t.step ((s.stage st).engine e) < t.step ((s.stage st).engine f) then some e else some f) none

/-- Are a task's streams unclaimed (12 R241)? -/
def Stage.unclaimed (g : Stage) (t : Task) : Bool := t.streams.all fun n => (g.stream n).claim.isNone

/-- Does each valid predecessor tag name no task of the stage that has not ended? -/
def Stage.predecessorsEnded (g : Stage) (t : Task) : Bool := t.predecessors.all fun p => g.tasks.all fun x => x.tag != p

/-- The conditions of R246 except the engine and the gate, for a task that has not started. -/
def State.taskReady (s : State) (st : Nat) (t : Task) : Bool :=
  let g := s.stage st
  t.status == 1#3 && !t.admitted && g.halted == 0 &&
    (g.tasks.all fun x => !(x.submitter == t.submitter && decide (x.seq < t.seq) && (x.status == 1#3 || t.barrier))) &&
    ((s.holds st).all fun h => !(h.load && h.core == t.submitter && decide (h.seq ≤ t.seq))) &&
    g.predecessorsEnded t && g.unclaimed t

/-- The effective priority of a task: its own, and that of every later task of its submitter (26 R375). -/
def State.taskPriority (s : State) (g : Stage) (t : Task) : Nat :=
  (g.tasks.filter fun x => x.submitter == t.submitter && decide (t.seq ≤ x.seq)).foldl
    (fun m x => Nat.max m (Nat.min 3 (x.priority + (s.cycle - x.acceptedAt) / 65536))) 0

/-- A ready task and the engine it would take. -/
structure Ready where
  stage : Nat
  task : Task
  engine : Nat
  prio : Nat
deriving DecidableEq, Repr

/-- The timestamp of a task's acceptance, from cycle 0 on (00 R4). -/
def Task.acceptedTime (t : Task) : Nat := t.acceptedAt * 10 / 33

/-- Does a ready task rank before another (26 R375)? -/
def Ready.before (a b : Ready) : Bool :=
  if a.prio ≠ b.prio then decide (b.prio < a.prio)
  else if a.task.acceptedTime ≠ b.task.acceptedTime then decide (a.task.acceptedTime < b.task.acceptedTime)
  else if a.stage ≠ b.stage then decide (a.stage < b.stage)
  else decide (a.task.seq < b.task.seq)

/-- Insert by rank. -/
def Ready.insert (a : Ready) : List Ready → List Ready
  | [] => [a]
  | b :: l => if a.before b then a :: b :: l else b :: Ready.insert a l

/-- The ready tasks of a stage whose predecessors, if any faulted, did (`faulted`) or did not. -/
def State.stageReady (s : State) (st : Nat) (faulted : Bool) : List Ready :=
  let g := s.stage st
  (g.tasks.filter fun t => s.taskReady st t && t.doomed.isSome == faulted).filterMap fun t =>
    (s.chooseEngine st t).map fun e => ⟨st, t, e, s.taskPriority g t⟩

/-- The stages of a die that hold anything. -/
def State.stagesOf (s : State) (die : Nat) : List Nat := (s.stages.map Prod.fst).filter fun st => dieOfStage st == die

/-- The ready tasks of a die by rank (26 R375). -/
def State.rankedReady (s : State) (die : Nat) : List Ready :=
  ((s.stagesOf die).flatMap fun st => s.stageReady st false).foldl (fun l r => r.insert l) []

/-! ## The start gate (26 R373, R374) -/

/-- The limit that an admission of a cycle uses (26 R381). -/
def Die.limit (d : Die) (cycle : Nat) : Nat := (if d.didtAt = cycle then d.didtOld else d.didt).toNat

/-- The ramp of a step as the die's registers now stand. -/
def State.rampFor (s : State) (die step : Nat) : Ramp :=
  let d := s.die die
  let limit := d.limit s.cycle
  let l := Nat.max d.engRamp.toNat ((step * 3300 + limit - 1) / limit)
  ⟨s.cycle + l, step, l⟩

/-- A sum of slopes as a fraction. -/
def slopeSum (l : List Ramp) : Nat × Nat :=
  l.foldl (fun a r => (a.1 * r.length + r.step * 3300 * a.2, a.2 * r.length)) (0, 1)

/-- Does the gate admit a ramp? -/
def State.fits (s : State) (die : Nat) (r : Ramp) : Bool :=
  let d := s.die die
  let sum := slopeSum (r :: d.ramps.filter fun x => decide (s.cycle < x.ends))
  decide (sum.1 ≤ d.limit s.cycle * sum.2)

def Ready.step (r : Ready) (s : State) : Nat := r.task.step ((s.stage r.stage).engine r.engine)

/-- The first request with a nonzero step. -/
def State.firstStep (s : State) (die : Nat) : Option Ready := (s.rankedReady die).find? fun r => r.step s != 0

/-- Has an engine a task to come? -/
def Stage.wanted (g : Stage) (e : Nat) : Bool := g.tasks.any fun t => t.status == 1#3 && (t.anyEngine || t.acc / 4 == e)

/-- The engines whose ramp down to 0 is requested. -/
def State.rampDowns (s : State) (die : Nat) : List (Nat × Nat) :=
  (s.stagesOf die).flatMap fun st =>
    ((List.range 4).filter fun e =>
      ((s.stage st).engine e).level != 0 && ((s.stage st).engine e).running.isNone && !(s.stage st).wanted e).map fun e => (st, e)

/-- A change of level that the gate has admitted. -/
def State.ramp (s : State) (die st e level : Nat) (r : Ramp) : State :=
  let s := s.setDie die { s.die die with ramps := (s.die die).ramps ++ [r] }
  s.setEngine st e { (s.stage st).engine e with level := level }

/-- Replace a task by its number. -/
def State.putTask (s : State) (st : Nat) (t : Task) : State :=
  s.setStage st { s.stage st with tasks := (s.stage st).tasks.map fun x => if x.seq = t.seq then t else x }

/-- The gate admits the first request with a nonzero step, if its slope fits; with none, a ramp down. -/
def execGateAdmit (die : Nat) (s : State) : Result :=
  .next (match s.firstStep die with
    | some r =>
      let m := s.rampFor die (r.step s)
      if s.fits die m then
        (s.ramp die r.stage r.engine r.task.level m).putTask r.stage { r.task with admitted := true, engine := r.engine }
      else s
    | none =>
      match s.rampDowns die with
      | [] => s
      | (st, e) :: _ =>
        let m := s.rampFor die ((s.stage st).engine e).level
        if s.fits die m then s.ramp die st e 0 m else s)

/-- Ramps whose cycles have elapsed leave the sum. -/
def execRampEnd (die : Nat) (s : State) : Result :=
  let d := s.die die
  .next (s.setDie die { d with ramps := d.ramps.filter fun x => decide (s.cycle < x.ends) })

/-- `didt.limit` written: 0 is ignored (26 R376). -/
def State.writeDidt (s : State) (die : Nat) (v : BitVec 10) : State :=
  let d := s.die die
  if v = 0#10 then s
  else s.setDie die { d with didt := v, didtOld := BitVec.ofNat 10 (d.limit s.cycle), didtAt := s.cycle }

/-- `eng.ramp` written: a value below 16 is ignored. -/
def State.writeRamp (s : State) (die : Nat) (v : BitVec 12) : State :=
  if v.toNat < 16 then s else s.setDie die { s.die die with engRamp := v }

def execDidtLimitWrite (die value : Nat) (s : State) : Result := .next (s.writeDidt die (BitVec.ofNat 10 value))

def execEngRampWrite (die value : Nat) (s : State) : Result := .next (s.writeRamp die (BitVec.ofNat 12 value))

/-- The starts that the gate holds back pass n cycles (29 R417): each is counted once, and the cycles are. -/
def State.gateTick (s : State) (die n : Nat) : State :=
  match s.firstStep die with
  | none => s
  | some r =>
    if s.fits die (s.rampFor die (r.step s)) then s
    else
      let held := (s.rankedReady die).filter fun r => r.step s != 0
      let new := (held.filter fun r => !r.task.counted).length
      let s := held.foldl (fun s r => s.putTask r.stage { r.task with counted := true }) s
      let d := s.die die
      s.setDie die { d with delayed := d.delayed + new, heldCycles := d.heldCycles + n }

/-! ## The end of a task (12 R242, R249) -/

/-- A play's way back: the tile returns to its core, and then its counter is bumped. -/
def segReturned (core tile : Nat) (counter : Option Nat) (faulted : Bool) : Req :=
  { Req.device core (.segReturn core tile counter faulted) with place := .core core }

/-- The segments of a stream are discarded; tiles return with their fault bit set (12 R242). -/
def State.discard (s : State) : List Segment → State
  | [] => s
  | .tile core tile _ _ _ :: l => (s.push (segReturned core tile none true)).discard l
  | .dram _ _ _ _ _ _ _ :: l => s.discard l

/-- Release or reset the streams of a task. -/
def State.releaseStreams (s : State) (st : Nat) (reset : Bool) : List Nat → State
  | [] => s
  | n :: l =>
    let q := (s.stage st).stream n
    let s := if reset then s.discard q.segs else s
    (s.setStream st n { q with claim := none, segs := if reset then [] else q.segs }).releaseStreams st reset l

/-- A task that names one that has faulted as a predecessor will fault when it would start (12 R249). -/
def Task.doom (tag : Nat) (t : Task) : Task :=
  if t.status = 1#3 ∧ t.predecessors.contains tag ∧ t.doomed.isNone then { t with doomed := some tag } else t

/-- A running task ends: its engine is free, its FIFOs are empty, and the scheduler remembers it. -/
def State.endTask (s : State) (st : Nat) (t : Task) (status : BitVec 3) (cause : BitVec 7) : State :=
  let s := if t.status = 2#3 then
      let s := s.releaseStreams st (status == 4#3) t.streams.eraseDups
      s.setEngine st t.engine { (s.stage st).engine t.engine with running := none, fifoA := [], fifoB := [] }
    else s
  let g := s.stage st
  s.setStage st { g with
    tasks := (g.tasks.filter fun x => x.seq != t.seq).map fun x => if status = 4#3 then x.doom t.tag else x
    ended := ({ t with status := status, cause := cause } :: g.ended).take 64 }

/-- A task faults (12 R249): posted with its tag and submitter. -/
def State.faultTask (s : State) (st : Nat) (t : Task) (cause : BitVec 7) (d0 d1 : Nat) : State :=
  let unit := if t.status = 2#3 then t.engine else 6
  (s.endTask st t 4#3 cause).postError (s.partOfStage st)
    ⟨cause, BitVec.ofNat 14 t.submitter, 1#2, engineName st unit, 0#64, BitVec.ofNat 64 d0, BitVec.ofNat 64 d1⟩

/-- A task completes, and bumps its counter if it has one. -/
def State.completeTask (s : State) (st : Nat) (t : Task) : State :=
  let s := s.endTask st t 3#3 0#7
  if t.counts then s.unitBump st t.counterCore t.counter 1 else s

/-- A record that a stage's copy engine posts about a core's work (24 R345, R347). -/
def State.postCopy (s : State) (st : Nat) (core : Nat) (cause : BitVec 7) (d0 d1 : Word) : State :=
  s.postError (s.partOfStage st) ⟨cause, BitVec.ofNat 14 core, 1#2, engineName st 4, 0#64, d0, d1⟩

/-- A DRAM segment faults for good at an address: the copy engine posts its record to the segment's issuer, with the address and
the underlying cause (24 R345), and the task that has claimed the stream faults with its tag and the stream (12 R241, R249; log
79). -/
def State.failExtent (s : State) (st : Nat) (t : Task) (stream core va : Nat) (cause : BitVec 7) : State :=
  (s.postCopy st core Cause.dramTransfer (BitVec.ofNat 64 va) (cause.setWidth 64)).faultTask st t Cause.dramTransfer t.tag stream

/-- The task an engine runs. -/
def State.runningTask (s : State) (st e : Nat) : Option Task :=
  (s.stage st).tasks.find? fun t => t.status == 2#3 && t.engine == e

/-! ## A task starts -/

/-- The key of a region element in an engine's accumulators. -/
def Task.accKey (t : Task) (i j : Nat) : Nat := t.acc % 4 * 16384 + (t.row0 + i) * 128 + (t.col0 + j)

/-- The region's elements, row by row. -/
def Task.region (t : Task) : List (Nat × Nat) := (List.range t.rows).flatMap fun i => (List.range t.cols).map fun j => (i, j)

/-- Apply a function of the old value to every element of the region. -/
def Engine.mapRegion (e : Engine) (t : Task) (f : Nat → Nat → Nat → Nat) : Engine :=
  { e with acc := t.region.foldl (fun m p =>
      Assoc.put 0#32 m (t.accKey p.1 p.2)
        (BitVec.ofNat 32 (f p.1 p.2 (Assoc.get 0#32 m (t.accKey p.1 p.2)).toNat))) e.acc }

/-- The table slot that holds a pinned task's block for column j and group g (13 R264). -/
def Task.pinnedSlot (t : Task) (j g : Nat) : Nat := (t.bStream % 8 + j * t.groups + g) % 8

/-- The first slot of a pinned task that is not valid and pinned. -/
def Task.badSlot (t : Task) (e : Engine) : Option Nat :=
  if t.opcode = 1 ∧ t.bFormat = 0 ∧ t.computes then
    ((List.range t.cols).flatMap fun j => (List.range t.groups).map fun g => t.pinnedSlot j g).find? fun k =>
      !(e.slots.find k).any fun x => x.pinned
  else none

/-- Start a task on an engine: it claims its streams; CLEAR, and a task with K = 0, act on the region at once. -/
def State.startTask (s : State) (st e : Nat) (t : Task) : State :=
  let t := { t with status := 2#3, engine := e, admitted := false }
  let s := s.putTask st t
  let s := t.streams.foldl (fun s n => s.setStream st n { (s.stage st).stream n with claim := some e }) s
  let s := s.setEngine st e { (s.stage st).engine e with running := some t.seq }
  match t.badSlot ((s.stage st).engine e) with
  | some k => s.faultTask st t Cause.sbpTable t.tag k
  | none =>
    if t.opcode = 2 ∨ (t.computes ∧ t.depth = 0 ∧ !t.accumulate) then
      s.setEngine st e (((s.stage st).engine e).mapRegion t fun _ _ _ => 0)
    else s

/-- May a task that the gate has admitted start on its engine? Its predecessors' tags may have been taken anew since. -/
def State.admittedOpen (s : State) (st e : Nat) (t : Task) : Bool :=
  let g := s.stage st
  t.status == 1#3 && t.admitted && t.engine == e && (g.engine e).running.isNone && g.halted == 0 && g.predecessorsEnded t &&
    g.unclaimed t && s.holdsAllow st e t

/-- A task that would start on an engine, but names a faulted task as a predecessor, faults instead (12 R249). -/
def State.faultDoomed (s : State) (st e : Nat) (t : Task) (tag : Nat) : State :=
  s.faultTask st { t with engine := e } Cause.predecessorFault t.tag tag

/-- A task that the gate has admitted starts, unless a predecessor has faulted since, or the engine's level has changed: then
the gate admits it anew. -/
def State.startAdmitted (s : State) (st e : Nat) (t : Task) : State :=
  match t.doomed with
  | some tag => s.faultDoomed st e t tag
  | none => if t.step ((s.stage st).engine e) = 0 then s.startTask st e t else s.putTask st { t with admitted := false }

/-- The scheduler starts a task on an engine: one the gate has admitted, else the first by rank with step 0; a task with a
faulted predecessor faults instead. -/
def execTaskStart (stage engine : Nat) (s : State) : Result :=
  .next (match (s.stage stage).tasks.find? (s.admittedOpen stage engine) with
    | some t => s.startAdmitted stage engine t
    | none =>
      match (s.stageReady stage true).find? fun r => r.engine == engine with
      | some r => s.faultDoomed stage r.engine r.task (r.task.doomed.getD 0)
      | none =>
        match (s.rankedReady (dieOfStage stage)).find? fun r => r.stage == stage && r.engine == engine && r.step s == 0 with
        | some r => s.startTask stage engine r.task
        | none => s)

/-! ## Plays (12 R239 to R241) -/

/-- The units a play brings: elements, or blocks of format 15. A size that no count of elements has brings scale bytes that do
not equal the number of its blocks (12 R241). -/
def playCount (fmt : Nat) (data : List Byte) : Except Bool Nat :=
  if fmt = 15 then (splitBlocks data.length data).map List.length
  else match elemCount fmt data.length with
    | some n => .ok n
    | none => .error false

def Play.count (p : Play) : Nat := match playCount p.format.toNat p.data with
  | .ok n => n
  | .error _ => 0

/-- The units that plays have brought. -/
def arrived (l : List Play) : Nat := (l.map Play.count).foldl (· + ·) 0

/-- The need of a task from its A and B streams. -/
def Task.need (t : Task) (b : Bool) : Nat :=
  if b then if t.opcode = 1 then if t.bFormat = 15 then t.cols * t.groups else 0 else t.cols * t.depth else t.rows * t.depth

/-- Which operand a play of a stream is for: A, until its need is met, then B; none once both are met. -/
def Engine.wants (e : Engine) (t : Task) (stream : Nat) : Option Bool :=
  if stream = t.aStream ∧ arrived e.fifoA < t.need false then some false
  else if stream = t.bStream ∧ arrived e.fifoB < t.need true then some true
  else none

/-- Load a play's blocks into the table slots in order (13 R263); a block that fails R72 stops it: its slot. -/
def loadBlocks (slots : Assoc TableSlot) (n : Nat) : List (List Byte) → Assoc TableSlot × Option Nat
  | [] => (slots, none)
  | b :: l =>
    match decodeBlock b with
    | none => (slots, some (n % 8))
    | some k => loadBlocks (slots.set (n % 8) ⟨k, false⟩) (n + 1) l

/-- A play enters the FIFO of the engine that runs the task, or makes the task fault; true when it has entered. A play of blocks that
ends inside one, or brings too many, desynchronises the stream before any block of it is checked (DESIGN CHOICE, log 84). -/
def State.enterPlay (s : State) (st : Nat) (t : Task) (stream : Nat) (b : Bool) (fmt : BitVec 4) (data : List Byte) :
    State × Bool :=
  let e := (s.stage st).engine t.engine
  let want := if b then t.bFormat else t.aFormat
  let fifo := if b then e.fifoB else e.fifoA
  let bad (c : BitVec 7) (d : Nat) : State × Bool := (s.faultTask st t c t.tag d, false)
  if fmt.toNat ≠ want then bad Cause.streamDesync stream
  else
    match playCount want data with
    | .error true => bad Cause.sbpTable ((arrived fifo + wholeBlocks data.length data) % 8)
    | .error false => bad Cause.streamDesync stream
    | .ok n =>
      if t.need b < arrived fifo + n then bad Cause.streamDesync stream
      else
        let play : Play := ⟨fmt, data, []⟩
        if want = 15 then
          let l := (splitBlocks data.length data).toOption.getD []
          let r := loadBlocks e.slots (arrived fifo) l
          let s := s.setEngine st t.engine { e with slots := r.1, fifoB := e.fifoB ++ [play] }
          match r.2 with
          | none => (s, true)
          | some k => (s.faultTask st t Cause.sbpTable t.tag k, false)
        else (s.setEngine st t.engine (if b then { e with fifoB := e.fifoB ++ [play] } else { e with fifoA := e.fifoA ++ [play] }),
          true)

/-- One tile segment play: its trailer is checked first (12 R239); the last play sends the tile back. -/
def State.playTile (s : State) (st : Nat) (t : Task) (stream : Nat) (b : Bool) (core tile left : Nat) (counter : Option Nat)
    (begun : Bool) : State :=
  let e := (s.core core).tile tile
  let data := s.tileBytes core e
  let f := e.format.toNat
  if !begun ∧ e.trailer ∧ !trailerOk f data (s.readBytes (ulmAddr core (e.base.toNat + e.size.toNat)) 16) then
    s.faultTask st t Cause.trailerChecksum t.tag tile
  else
    match s.enterPlay st t stream b e.format data with
    | (s, false) => s
    | (s, true) =>
      let q := (s.stage st).stream stream
      if left ≤ 1 then (s.setStream st stream { q with segs := q.segs.tail }).push (segReturned core tile counter false)
      else s.setStream st stream { q with segs := .tile core tile (left - 1) counter true :: q.segs.tail }

/-- How far a run of DRAM accesses by a unit gets. -/
inductive Moved where
  | done
  | miss (va : Nat)
  | busy
  | fault (va : Nat) (cause : BitVec 7)
deriving DecidableEq, Repr

/-- Read bytes from DRAM through a unit's TLB, from byte i on: `at'` gives the virtual address of a byte and the bytes that
follow it contiguously. The fuel is the number of bytes. -/
def State.pullBytes (tlb : TlbId) (ctx : Nat) (at' : Nat → Nat × Nat) (total : Nat) :
    Nat → List Byte → State → List Byte × Moved × State
  | 0, acc, s => (acc, .done, s)
  | n + 1, acc, s =>
    if total ≤ acc.length then (acc, .done, s)
    else
      let a := at' acc.length
      match s.look tlb ctx a.1 4#3 with
      | .hit p =>
        let k := Nat.min (Nat.min p.run a.2) (p.page - p.phys % p.page)
        match s.dramRead false p k with
        | (.ok bs, s) => State.pullBytes tlb ctx at' total n (acc ++ bs) s
        | (.error c, s) => (acc, .fault a.1 c, s)
      | .cause c => (acc, .fault a.1 c, s)
      | .miss => (acc, .miss a.1, s)
      | .busy => (acc, .busy, s)

/-- The address of byte i of an extent, and the bytes left there. -/
def extentAt (va len i : Nat) : Nat × Nat := ((va + i) % 2 ^ 57, len - i)

/-- The head segment of a stream has changed. -/
def State.setHead (s : State) (st stream : Nat) (g : Segment) : State :=
  let q := (s.stage st).stream stream
  s.setStream st stream { q with segs := g :: q.segs.tail }

/-- A DRAM segment plays once, its extent read from the byte that it has reached (12 R240). -/
def State.playDram (s : State) (st : Nat) (t : Task) (stream : Nat) (b : Bool) (core va len : Nat) (fmt : BitVec 4)
    (counter : Option Nat) (data : List Byte) : State :=
  let ctx := s.contextOfStage st
  let r := s.pullBytes (.copy st) ctx (extentAt va len) len len data
  let s := r.2.2.setHead st stream (.dram core va len fmt counter r.1 none)
  match r.2.1 with
  | .done =>
    match s.enterPlay st t stream b fmt r.1 with
    | (s, false) => s
    | (s, true) =>
      let q := (s.stage st).stream stream
      let s := s.setStream st stream { q with segs := q.segs.tail }
      match counter with
      | some c => s.unitBump st core c 1
      | none => s
  | .miss a => s.startMiss (.copy st) ctx a 4#3
  | .busy => s
  | .fault a c =>
    if c = Cause.pageFault then
      (s.setHead st stream (.dram core va len fmt counter r.1 (some (a / 65536)))).enterFault (.copy st) ctx a 4#3 (.segment st stream)
    else s.failExtent st t stream core a c

/-- The copy engine plays the head segment of a claimed stream once. -/
def execSegmentPlay (stage stream : Nat) (s : State) : Result :=
  let g := s.stage stage
  let q := g.stream stream
  .next (match q.claim.bind (s.runningTask stage) with
    | none => s
    | some t =>
      match (g.engine t.engine).wants t stream, q.segs with
      | some b, .tile core tile left counter begun :: _ =>
        if 2 ≤ g.halted then s else s.playTile stage t stream b core tile left counter begun
      | some b, .dram core va len fmt counter data none :: _ =>
        if 2 ≤ g.halted then s else s.playDram stage t stream b core va len fmt counter data
      | _, _ => s)

/-- A tile segment has come back to its core: ready, and then its counter is bumped. -/
def execSegmentReturn (id : Nat) (s : State) : Result :=
  .next (match s.req id with
    | some r =>
      match r.body with
      | .segReturn core tile counter faulted =>
        let s := s.drop id
        let e := (s.core core).tile tile
        let s := s.setTile core tile { e with owner := false, state := 2#2, fault := e.fault || faulted }
        match counter with
        | some c => s.unitBump (stageOf core) core c 1
        | none => s
      | _ => s
    | none => s)

/-! ## Promotion blocks (12 R247, 13 R258) -/

/-- The values that plays have brought. -/
def playValues (l : List Play) : List FVal := l.flatMap fun p => tileValues p.format.toNat p.data

/-- The blocks that plays have brought. -/
def playBlocks (l : List Play) : List (List Byte) := l.flatMap fun p => match splitBlocks p.data.length p.data with
  | .ok b => b
  | .error _ => []

/-- The elements k0 to k0 + n - 1 of row or column i. -/
def vectorPart (vals : List FVal) (k i k0 n : Nat) : List FVal := (vals.drop (i * k + k0)).take n

/-- The keeper's entries for a task in keeper mode; none where the buffer is not full yet. -/
def Task.keeperEntries (t : Task) (g : Stage) : Option (Nat → Option Nat) :=
  if t.scaleMode = 1 then
    let c := g.channel t.channel
    if c.consumeFull then some fun i => some (c.entry (c.consume.toNat * 128 + i)).toNat else none
  else some fun _ => none

/-- The old value that a task adds to at its first block. -/
def Task.start (t : Task) (old : Nat) : Nat := if t.block = 0 ∧ !t.accumulate then 0 else old

/-- After a block: the task has added one more, and a keeper buffer is consumed. -/
def State.blockDone (s : State) (st : Nat) (t : Task) : State :=
  let s := s.putTask st { t with block := t.block + 1 }
  if t.scaleMode = 1 then s.setChannel st t.channel ((s.stage st).channel t.channel).release else s

/-- One GEMM block over the region, once the operands it needs have arrived. -/
def State.gemmBlock (s : State) (st : Nat) (t : Task) (keeper : Nat → Option Nat) : State :=
  let e := (s.stage st).engine t.engine
  let k := t.depth
  let k0 := t.block * t.blockSize
  let n := Nat.min t.blockSize (k - k0)
  let a := playValues e.fifoA
  let b := playValues e.fifoB
  if (t.rows - 1) * k + k0 + n ≤ a.length ∧ (t.cols - 1) * k + k0 + n ≤ b.length then
    let rows := (List.range t.rows).map fun i => vectorPart a k i k0 n
    let cols := (List.range t.cols).map fun j => vectorPart b k j k0 n
    (s.setEngine st t.engine (e.mapRegion t fun i j old =>
      addBlock (t.start old) ((rows.getD i []).zip (cols.getD j [])) (keeper i))).blockDone st t
  else s

/-- The block of a column and group: pinned, or from the B stream. -/
def Task.sbpBlock (t : Task) (e : Engine) (blocks : List (List Byte)) (j g : Nat) : Option Block :=
  if t.bFormat = 0 then (e.slots.find (t.pinnedSlot j g)).map TableSlot.block
  else (blocks[j * t.groups + g]?).bind decodeBlock

/-- The lanes after a group's pairs, one for each column. -/
def laneStates (t : Task) (g free : Nat) (last : List FVal) (blocks : List (Option Block)) (l : Lane × Lane) : Lane × Lane :=
  blocks.zipIdx.foldl (fun l e =>
    match e.1 with
    | none => l
    | some b =>
      let v := laneAfter t.aFormat g e.2 (t.rows - 1) last b
      if Config.laneOf (free + e.2) then (l.1, v) else (v, l.2)) l

/-- One SBP group over the region, once its row parts and blocks have arrived. -/
def State.sbpBlocks (s : State) (st : Nat) (t : Task) (keeper : Nat → Option Nat) : State :=
  let e := (s.stage st).engine t.engine
  let k := t.depth
  let g := t.block
  let a := playValues e.fifoA
  let bytes := playBlocks e.fifoB
  let blocks := (List.range t.cols).map fun j => t.sbpBlock e bytes j g
  if (t.rows - 1) * k + g * 128 + 128 ≤ a.length ∧ blocks.all Option.isSome then
    let rows := (List.range t.rows).map fun i => vectorPart a k i (g * 128) 128
    let e := e.mapRegion t fun i j old =>
      match (blocks.getD j none) with
      | some b => sbpGroup t.aFormat (t.start old) (rows.getD i []) b (keeper i)
      | none => old
    let e := { e with lanes := laneStates t g s.freeIx (rows.getLastD []) blocks e.lanes }
    { (s.setEngine st t.engine e).blockDone st t with freeIx := s.freeIx + t.cols }
  else s

/-- An engine adds one promotion block, or one group, to the whole region. -/
def execPromotionBlock (stage engine : Nat) (s : State) : Result :=
  .next (match s.runningTask stage engine with
    | none => s
    | some t =>
      if 2 ≤ (s.stage stage).halted ∨ t.blocks ≤ t.block then s
      else
        match t.keeperEntries (s.stage stage) with
        | none => s
        | some keeper => if t.opcode = 0 then s.gemmBlock stage t keeper else s.sbpBlocks stage t keeper)

/-- Does a task drain (12 R247)? -/
def Task.drains (t : Task) : Bool := t.drain && decide (0 < t.rows) && decide (0 < t.cols)

def execTaskComplete (stage engine : Nat) (s : State) : Result :=
  .next (match s.runningTask stage engine with
    | none => s
    | some t => if t.block < t.blocks ∨ t.drains ∨ 2 ≤ (s.stage stage).halted then s else s.completeTask stage t)

/-! ## Fills and drains (06 R89, 12 R248) -/

/-- May a copy engine take a tile for a fill? -/
def Tile.fillable (t : Tile) : Bool := !t.owner && (t.state == 0#2 || t.state == 2#2)

/-- A tile is taken by the copy engine of a stage, in a state: filling or draining. -/
def Tile.taken (t : Tile) (st : Nat) (state : BitVec 2) : Tile := { t with owner := true, engine := engineName st 4, state := state }

/-- A fill lands in a tile, with its trailer if it brings one; `moves` is false for a fill that moves no byte. -/
def State.landFill (s : State) (core tile : Nat) (f : Filling) (moves : Bool) : State :=
  let t := (s.core core).tile tile
  let s := if moves then
      let s := s.writeBytes (ulmAddr core t.base.toNat) f.data
      match f.trailer with
      | some b => s.writeBytes (ulmAddr core (t.base.toNat + t.size.toNat)) b
      | none => s
    else s
  s.setTile core tile { t with owner := false, state := 2#2, fault := false, trailer := f.trailer.isSome }

/-- A fill faults: the tile is empty, with its fault bit set. -/
def State.failFill (s : State) (core tile : Nat) : State :=
  s.setTile core tile { (s.core core).tile tile with owner := false, state := 0#2, fault := true }

/-- The region as values, row by row. -/
def Engine.regionValues (e : Engine) (t : Task) : List FVal :=
  t.region.map fun p => Fmt.fp32.unpack (e.accAt (t.accKey p.1 p.2)).toNat

/-- A finished task drains its region: first its tile is taken, then the fill lands or faults. A quantised drain gives a tile of any
format its trailer, one of code 15 too (DESIGN CHOICE, log 84). -/
def execTaskDrain (stage engine : Nat) (s : State) : Result :=
  .next (match s.runningTask stage engine with
    | none => s
    | some t =>
      if t.block < t.blocks ∨ !t.drains ∨ 2 ≤ (s.stage stage).halted then s
      else
        let core := t.drainCore
        let e := (s.core core).tile t.drainTile
        if !t.filling then
          if e.fillable then
            (s.setTile core t.drainTile (e.taken stage 1#2)).putTask stage { t with filling := true }
          else s
        else if e.size = 0#18 ∨ sizeFor t.drainFormat (t.rows * t.cols) ≠ some e.size.toNat then
          (s.failFill core t.drainTile).faultTask stage t Cause.tileSize t.tag t.drainTile
        else
          let vals := ((s.stage stage).engine engine).regionValues t
          let s := s.landFill core t.drainTile (fillingOf t.drainFormat s.freeIx vals) true
          { s with freeIx := s.freeIx + vals.length }.completeTask stage t)

end Sys2Proof.Machine
end

