-- ==== Sys2Proof/Machine/Dq.lean ====
section
/-!
DEFINITION. Dq.lean: the DRAM transfer queue (06 R86 to R88, 10 R187 to R189).
-/

namespace Sys2Proof.Machine

/-! ## The instructions (10 R187, R188) -/

/-- The number of a free queue entry. -/
def freeEntry (q : CoreQueues) : Option Nat := (List.range 16).find? fun i => (q.dq.find i).isNone

/-- The task's atomics in flight that touch any of n bytes at a virtual address. -/
def State.sameAtomics (s : State) (va n : Nat) : List Nat :=
  (s.reqs.filter fun r => s.isMine r &&
    match r.body with
    | .atomic a => a.phys.isSome && overlap a.addr a.bytes va n
    | _ => false).map Req.id

/-- Take a queue entry: it waits at issue while all sixteen are in use. Its accesses follow what fences order before them
and the task's earlier accesses to the same bytes, a gather's index list among them; those to the rows of a gather, which are not
known yet, are left to `rowsOpen`. -/
def takeEntry (kind : DqKind) (ulm va len exp list : Nat) (counter target : Nat) : Op Unit := do
  let s ← get
  let core := s.cur.1
  let c := s.core core
  match freeEntry c.queues with
  | none => stop .wait
  | some i => do
    let same := s.sameLocation (ulmAddr core ulm) len ++
      (if kind = .gather then s.sameLocation (ulmAddr core list) (len / 2 ^ exp * 4) else s.sameAtomics va len)
    let e : DqEntry :=
      { kind := kind, ulm := ulm, va := va, len := len, exp := exp, list := list, indices := [], counter := counter
        target := target, started := false, done := 0, suspended := none, order := c.queues.dqOrder, id := s.nextId
        after := s.fenceWaits .q ++ same, joined := s.curThread.slot.afenced, ctx := s.cur.2
        epoch := s.curThread.slot.epoch }
    set { s.setQueues core { c.queues with dq := c.queues.dq.set i e, dqOrder := c.queues.dqOrder + 1 } with
      nextId := s.nextId + 1 }

/-- The checks of the ULM capability of a transfer, in the order of 10 R187, for n bytes at its cursor. -/
def transferCap (r : XReg) (need : Need) (n : Nat) : Op Nat := do
  requireLocal r 0
  derefCheck r need 0 n
  let off := (capTarget r.val 0).ulmOff
  let s ← get
  require (!(s.img.mode == .user && decide (0 < n) && decide (off + n > 0x38000))) Cause.wings (BitVec.ofNat 64 off)
  pure off

/-- A register whose field check fails names itself (24 R345). -/
def dramOperand (b : Bool) (r : XName) : Op Unit := require b Cause.dramOperand (r.setWidth 64)

/-- `dpull` and `dpush`; the first operand checks that fail decide, in the order of the table of R187. -/
def transferOp (kind : DqKind) (d : XName) (c : BitVec 6) (a b : Src) : State → Result := plain (do
  let (cap, r) ← readSrc3 d a b
  let va := Quad.low r.1.val
  let m := Quad.low r.2.val
  let len := (m.extractLsb' 0 32).toNat
  let ulm ← transferCap cap (if kind = .push then needL else needS) len
  dramOperand (decide (va.toNat < 2 ^ 57)) a.reg
  dramOperand (decide (len ≤ 16777216)) b.reg
  dramOperand (m.extractLsb' 47 17 == 0#17) b.reg
  let s ← get
  let pair := (m.extractLsb' 32 14).toNat
  if m.getLsbD 46 then do
    let p : Word := BitVec.ofNat 64 pair
    require (s.grade.hasCore pair) Cause.mapAddress p
    require (s.samePart s.cur.1 pair) Cause.partitionBoundary p
  takeEntry kind ulm va.toNat len 0 0 c.toNat (if m.getLsbD 46 then pair else s.cur.1))

def execDpull (d : XName) (c : BitVec 6) (a b : Src) : State → Result := transferOp .pull d c a b
def execDpush (d : XName) (c : BitVec 6) (a b : Src) : State → Result := transferOp .push d c a b

/-- `dgath` (10 R188): the indices are read when the entry starts, and stores to them that issue later are held until then. -/
def execDgath (d : XName) (c : BitVec 6) (a b : Src) : State → Result := plain (do
  let (cap, r) ← readSrc3 d a b
  let base := Quad.low r.1.val
  let k := (base.extractLsb' 57 7).toNat
  requireLocal r.2 0
  let bytes := (Quad.length r.2.val).toNat - (Quad.offset r.2.val).toNat
  let list ← transferCap r.2 needL bytes
  dramOperand (decide (2 ≤ k) && decide (k ≤ 16)) a.reg
  dramOperand (bytes % 4 == 0) b.reg
  let m := bytes / 4
  let ulm ← transferCap cap needS (m * 2 ^ k)
  takeEntry .gather ulm (base.setWidth 57).toNat (m * 2 ^ k) k list c.toNat (← get).cur.1)

/-! ## Entries at work (06 R86, R87) -/

/-- The virtual address of byte i of an entry. -/
def DqEntry.vaAt (e : DqEntry) (i : Nat) : Nat :=
  match e.kind with
  | .gather => (e.va + e.indices.getD (i / 2 ^ e.exp) 0 * 2 ^ e.exp + i % 2 ^ e.exp) % 2 ^ 57
  | _ => (e.va + i) % 2 ^ 57

/-- The bytes from byte i on that are contiguous in DRAM. -/
def DqEntry.contiguous (e : DqEntry) (i : Nat) : Nat :=
  match e.kind with
  | .gather => 2 ^ e.exp - i % 2 ^ e.exp
  | _ => e.len - i

def DqEntry.need (e : DqEntry) : Perms := if e.kind = .push then 2#3 else 4#3

/-- The pages an entry touches, as addresses within them. -/
def DqEntry.pages (e : DqEntry) : List Nat :=
  match e.kind with
  | .gather => e.indices.flatMap fun i =>
      let a := (e.va + i * 2 ^ e.exp) % 2 ^ 57
      [a, (a + 2 ^ e.exp - 1) % 2 ^ 57]
  | _ => pagesFrom e.va e.len

/-- May an entry reach a strongly ordered page (06 R87)? -/
def State.entrySO (s : State) (core : Nat) (e : DqEntry) : Bool :=
  decide (e.len ≠ 0) && e.pages.any (s.maySO (.core core) (s.contextOf core))

/-- A strongly ordered access follows the core's earlier strongly ordered entries and atomics (07 R107). -/
def State.soOpen (s : State) (core : Nat) (e : DqEntry) : Bool :=
  !s.entrySO core e ||
    (((s.core core).queues.dq.all fun f => !(decide (f.2.id < e.id) && s.entrySO core f.2)) &&
      s.reqs.all fun r => !(r.core == core && decide (r.id < e.id) &&
        match r.body with
        | .atomic a => a.phys.any fun p => p.order == 1
        | _ => false))

/-- Do the task's earlier atomics on the rows of a gather come before its next access (07 R103)? -/
def State.rowsOpen (s : State) (core : Nat) (e : DqEntry) : Bool :=
  decide (e.kind ≠ .gather) || s.reqs.all fun r => !(r.core == core && r.ctx == e.ctx && r.epoch == e.epoch &&
    decide (r.id < e.id) &&
    match r.body with
    | .atomic a => a.phys.isSome && overlap a.addr a.bytes (e.vaAt e.done) (e.contiguous e.done)
    | _ => false)

/-- May an entry make its next access? -/
def State.entryOpen (s : State) (core : Nat) (e : DqEntry) : Bool :=
  e.started && e.suspended.isNone && e.after.all (fun i => !s.inFlight i) && s.soOpen core e && s.rowsOpen core e

def State.setEntry (s : State) (core i : Nat) (e : DqEntry) : State :=
  let q := (s.core core).queues
  s.setQueues core { q with dq := q.dq.set i e }

/-- An entry leaves the queue. -/
def State.endEntry (s : State) (core i : Nat) : State :=
  let q := (s.core core).queues
  s.setQueues core { q with dq := q.dq.del i }

/-- An entry completes: its counter is bumped (06 R86). -/
def State.completeEntry (s : State) (core i : Nat) (e : DqEntry) : State :=
  (s.endEntry core i).bump core e.target e.counter 1

/-- The next access of an entry: the bytes it takes, and what its lookup gives. -/
def State.nextAccess (s : State) (core : Nat) (e : DqEntry) : Look :=
  s.look (.core core) (s.contextOf core) (e.vaAt e.done) e.need

/-- The indices of a gather, from its list in the core's own ULM (10 R188). -/
def State.listIndices (s : State) (core : Nat) (e : DqEntry) : List Nat :=
  if e.kind = .gather then (wordsOf (s.readBytes (ulmAddr core e.list) (e.len / 2 ^ e.exp * 4))).map BitVec.toNat else []

/-- Entries start in issue order, and an entry of length zero completes at once. A gather reads its indices. The first access is
looked up, and a miss is sent. -/
def execDqEntryStart (core : Nat) (s : State) : Result :=
  let q := (s.core core).queues
  let first := (q.dq.filter fun e => !e.2.started).foldl (fun (o : Option (Nat × DqEntry)) e =>
    match o with
    | none => some e
    | some f => if e.2.order < f.2.order then some e else some f) none
  .next (match first with
    | none => s
    | some (i, e) =>
      if !e.after.all fun i => !s.inFlight i then s
      else
        let e := { e with started := true, indices := s.listIndices core e }
        if e.len = 0 then s.completeEntry core i e
        else
          let s := s.setEntry core i e
          match s.nextAccess core e with
          | .miss => s.startMiss (.core core) (s.contextOf core) (e.vaAt 0) e.need
          | _ => s)

/-- One access of an entry: n bytes from the first not yet performed. -/
def State.moveEntry (s : State) (core : Nat) (e : DqEntry) (p : DramAt) (n : Nat) : Except (BitVec 7) Unit × State :=
  let a := ulmAddr core (e.ulm + e.done)
  match e.kind with
  | .push => s.dramWrite (core, e.ctx, e.epoch) p (s.readBytes a n)
  | _ =>
    match s.dramRead e.joined p n with
    | (.ok bs, s) => (.ok (), s.writeBytes a bs)
    | (.error c, s) => (.error c, s)

/-- The next access of an entry, if it hits, is performed; the last one completes the entry. A miss is sent. An access that
fails at its location is left to DQ_ACCESS_FAULT. -/
def State.entryAccess (s : State) (core i : Nat) (e : DqEntry) : State :=
  match s.nextAccess core e with
  | .hit p =>
    let n := Nat.min (Nat.min p.run (e.contiguous e.done)) (p.page - p.phys % p.page)
    match s.moveEntry core e p n with
    | (.ok _, t) =>
      let e := { e with done := e.done + n }
      if e.len ≤ e.done then t.completeEntry core i e else t.setEntry core i e
    | (.error _, _) => s
  | .miss => s.startMiss (.core core) (s.contextOf core) (e.vaAt e.done) e.need
  | _ => s

/-- An entry that waits for the order of earlier ones looks its pages up, so that their order is known. -/
def State.lookAhead (s : State) (core : Nat) (e : DqEntry) : State :=
  match s.unknownPage (.core core) (s.contextOf core) e.pages with
  | some va =>
    if e.started ∧ e.suspended.isNone ∧ !s.soOpen core e then s.startMiss (.core core) (s.contextOf core) va e.need else s
  | none => s

def execDqEntryComplete (core entry : Nat) (s : State) : Result :=
  .next (match (s.core core).queues.dq.find entry with
    | some e => if s.entryOpen core e then s.entryAccess core entry e else s.lookAhead core e
    | none => s)

/-! ## Faults (06 R88) -/

/-- The resume offset: for a gather, whole rows. -/
def DqEntry.resume (e : DqEntry) : Nat :=
  match e.kind with
  | .gather => e.done / 2 ^ e.exp * 2 ^ e.exp
  | _ => e.done

/-- "DRAM transfer fault" reaches its task at the next instruction boundary, or the error queue if the task has ended. -/
def State.raiseTransfer (s : State) (core : Nat) (f : DqFault) : State :=
  let t := s.thread core f.ctx
  if t.slot.status ≠ .free ∧ t.slot.epoch = f.epoch then s.defer core f.ctx ⟨Cause.dramTransfer, f.addr, f.cause⟩
  else s.postError (s.partOf core) (coreRecord Cause.dramTransfer core f.addr (f.cause.setWidth 64))

/-- Write a fault record; an unresolvable one is then raised. -/
def State.writeFault (s : State) (core : Nat) (f : DqFault) : State :=
  let s := s.setQueues core { (s.core core).queues with dqFault := some f, dqValid := true }
  if f.resolvable then s else s.raiseTransfer core f

/-- A fault of an entry: its record is written, or waits while another is valid or waits before it. -/
def State.recordFault (s : State) (core : Nat) (f : DqFault) : State :=
  let q := (s.core core).queues
  if q.dqValid ∨ !q.dqWaiting.isEmpty then s.setQueues core { q with dqWaiting := q.dqWaiting ++ [f] } else s.writeFault core f

/-- The oldest waiting record is written once the bit is clear. -/
def State.nextFault (s : State) (core : Nat) : State :=
  let q := (s.core core).queues
  match q.dqValid, q.dqWaiting with
  | false, f :: rest => (s.setQueues core { q with dqWaiting := rest }).writeFault core f
  | _, _ => s

def execDqFaultRecordWrite (core : Nat) (s : State) : Result := .next (s.nextFault core)

/-- The valid bit clears (06 R88); the record's other fields, which are RO, stand (00 R5). -/
def State.clearFault (s : State) (core : Nat) : State :=
  s.setQueues core { (s.core core).queues with dqValid := false }

def execDqFaultClear (core : Nat) (s : State) : Result := .next (s.clearFault core)

/-- The record of an entry's fault: at the address that faulted, which a suspended entry keeps. -/
def DqEntry.fault (e : DqEntry) (i : Nat) (c : BitVec 7) (resolvable : Bool) : DqFault :=
  ⟨BitVec.ofNat 32 e.resume, c, BitVec.ofNat 4 i, BitVec.ofNat 64 (e.suspended.getD (e.vaAt e.done)), resolvable, e.ctx, e.epoch⟩

/-- An entry is abandoned: its counter is never bumped. -/
def State.abandonEntry (s : State) (core i : Nat) (e : DqEntry) (c : BitVec 7) : State :=
  (s.endEntry core i).recordFault core (e.fault i c false)

/-- An access of an entry faults: a page fault climbs the tree and the entry waits suspended; every other cause abandons
it. An uncorrectable error, or a peer's refusal, is met at the location. -/
def State.entryFault (s : State) (core i : Nat) (e : DqEntry) : State :=
  match s.nextAccess core e with
  | .cause c =>
    if c = Cause.pageFault then
      let va := e.vaAt e.done
      let s := s.setEntry core i { e with suspended := some va, done := e.resume }
      (s.recordFault core (e.fault i c true)).enterFault (.core core) (s.contextOf core) va e.need (.entry core i)
    else s.abandonEntry core i e c
  | .hit p =>
    match s.moveEntry core e p (Nat.min (Nat.min p.run (e.contiguous e.done)) (p.page - p.phys % p.page)) with
    | (.ok _, _) => s
    | (.error c, t) => t.abandonEntry core i e c
  | _ => s

def execDqAccessFault (core entry : Nat) (s : State) : Result :=
  .next (match (s.core core).queues.dq.find entry with
    | some e => if s.entryOpen core e then s.entryFault core entry e else s
    | none => s)

/-- Does a record describe a suspended entry? -/
def DqFault.of (f : DqFault) (i : Nat) : Bool := f.entry == BitVec.ofNat 4 i && f.resolvable

/-- A suspended entry resumes: its record clears, or is discarded where it still waits. -/
def State.resumeEntry (s : State) (core i : Nat) (e : DqEntry) : State :=
  let s := s.setEntry core i { e with suspended := none }
  let q := (s.core core).queues
  s.setQueues core { q with
    dqValid := q.dqValid && !q.dqFault.any fun f => f.of i
    dqWaiting := q.dqWaiting.filter fun f => !f.of i }

/-- A wake reaches a suspended entry (06 R88, 25 R363): it resumes and its record clears, or with deny it is abandoned and
its record stays as an unresolvable one; where a supervisor has cleared that record, it is recorded again. -/
def State.wakeEntry (s : State) (core i page : Nat) (deny : Bool) : State :=
  let q := (s.core core).queues
  match q.dq.find i with
  | none => s
  | some e =>
    if e.suspended.map (· / 65536) ≠ some page then s
    else if deny then
      let s := s.endEntry core i
      let q := (s.core core).queues
      if q.dqValid ∧ q.dqFault.any (fun f => f.of i) then s.writeFault core (e.fault i Cause.pageFault false)
      else if q.dqWaiting.any fun f => f.of i then
        s.setQueues core { q with dqWaiting := q.dqWaiting.map fun f => if f.of i then { f with resolvable := false } else f }
      else s.recordFault core (e.fault i Cause.pageFault false)
    else s.resumeEntry core i e

end Sys2Proof.Machine
end

