-- ==== Sys2Proof/Machine/Flags.lean ====
section
/-!
DEFINITION. Flags.lean: the floating-point flags of a context and their traps (05 R66 to R68, 24 R349).
-/

namespace Sys2Proof.Machine

/-- The cause of an enabled exception: the first in the order NV, DZ, OF, UF, NX. -/
def fpCause (f : FpFlags) : BitVec 7 :=
  if f.getLsbD 4 then Cause.fpInvalid
  else if f.getLsbD 3 then Cause.fpDivZero
  else if f.getLsbD 2 then Cause.fpOverflow
  else if f.getLsbD 1 then Cause.fpUnderflow
  else Cause.fpInexact

/-- The enables of `fp.ctrl`, in the places of the flags (R67). -/
def fpEnables (ctrl : BitVec 13) : FpFlags := ctrl.extractLsb' 8 5

/-- Raise flags: they are set; an enabled one then traps precisely, with nothing else written. -/
def raiseFlags (f : FpFlags) : Op Unit := do
  let s ← get
  let en := fpEnables s.img.fpCtrl &&& f
  if en = 0#5 then set (s.orFlags f) else stop (.fp (fpCause en) f)

/-- The rounding mode of an rm field (R66): 100 to 110, or a dynamic mode of 100 to 111, is illegal. -/
def roundingMode (rm : BitVec 3) : Op Rnd := do
  let s ← get
  let c := if rm = 7#3 then s.img.fpCtrl.extractLsb' 0 3 else rm
  match Rnd.ofCode c with
  | some m => pure m
  | none => illegal

end Sys2Proof.Machine
end

