-- ==== Sys2Proof/Machine/Atomic.lean ====
section
/-!
DEFINITION. Atomic.lean: atomics, major 13 (10 R195 to R199), and how their homes perform them (R196, 27 R392).
-/

namespace Sys2Proof.Machine

/-! ## What an atomic computes (10 R195, R198; 16 R302) -/

/-- FP32 bits as an ordered key (R302). -/
def visOrd (f : BitVec 32) : Nat :=
  let f := if f = 0x80000000#32 then 0#32 else f
  if f.getLsbD 31 then (~~~f).toNat else f.toNat + 2147483648

/-- Does a candidate replace a stored sample? -/
def vbWins (c s : Quad) : Bool :=
  let dc : BitVec 32 := c.setWidth 32
  let ds : BitVec 32 := s.setWidth 32
  let ic := (c.extractLsb' 64 64).toNat
  let is := (s.extractLsb' 64 64).toNat
  if (Fmt.fp32.unpack dc.toNat).isNaN then false
  else if (Fmt.fp32.unpack ds.toNat).isNaN then true
  else decide (visOrd dc < visOrd ds) || (decide (visOrd dc = visOrd ds) && decide (ic < is))

/-- The sample a winning candidate stores: a depth of -0.0 becomes +0.0. -/
def vbStored (c : Quad) : Quad :=
  if c.setWidth 32 = 0x80000000#32 then (c.extractLsb' 32 96 : BitVec 96) ++ 0#32 else c

/-- The new value of w bits, if one is written, and the flags. -/
def atomicNew (op : AOp) (w old v expect : Nat) : Option Nat × FpFlags :=
  let f : Fmt := if w = 64 then .fp64 else .fp32
  let plain (n : Nat) : Option Nat × FpFlags := (some (n % 2 ^ w), 0#5)
  let fp (r : Nat × FpFlags) : Option Nat × FpFlags := (some r.1, r.2)
  match op with
  | .add => plain (old + v)
  | .radd => plain (old + v)
  | .and => plain (old &&& v)
  | .or => plain (old ||| v)
  | .xor => plain (old ^^^ v)
  | .min => plain (if intOfBits w true old ≤ intOfBits w true v then old else v)
  | .max => plain (if intOfBits w true old ≤ intOfBits w true v then v else old)
  | .minu => plain (Nat.min old v)
  | .maxu => plain (Nat.max old v)
  | .swap => plain v
  | .cas => (if old = expect then some v else none, 0#5)
  | .fadd => fp (f.add .rne old v)
  | .fmin => fp (f.minMax false old v)
  | .fmax => fp (f.minMax true old v)
  | .vbmin =>
    if vbWins (BitVec.ofNat 128 v) (BitVec.ofNat 128 old) then (some (vbStored (BitVec.ofNat 128 v)).toNat, 0#5)
    else (none, 0#5)

/-- An atomic performed on an old value: the value written, the value returned, the flags, and whether it triggers. -/
def Atomic.perform (a : Atomic) (old : Nat) : Option Nat × Quad × FpFlags × Bool :=
  let w := 8 * a.bytes
  let r := atomicNew a.op w old (a.value.toNat % 2 ^ w) (a.expect.toNat % 2 ^ w)
  let ret : Quad := if a.op = .vbmin then BitVec.ofNat 128 r.1.isSome.toNat else BitVec.ofNat 128 old
  (r.1, ret, r.2, a.trigger != 0#6 && r.1 == some 0)

/-- The bytes an atomic replaces the old ones by, if it writes. -/
def Atomic.write (a : Atomic) (old : List Byte) : Option (List Byte) := (a.perform (natOfBytes old)).1.map (bytesOfNat a.bytes)

/-- The trigger's message (10 R199): the low bits of the address are its words. -/
def State.atomicTrigger (s : State) (core : Nat) (a : Atomic) : State :=
  s.pushTrigger core (a.trigger.setWidth 8) (BitVec.ofNat 32 a.addr) (BitVec.ofNat 25 (a.addr / 4294967296)).toNat

/-- Perform an atomic on ULM: the state after it, the value returned and the flags. -/
def State.ulmAtomic (s : State) (a : Atomic) : State × Quad × FpFlags :=
  let r := a.perform (s.readNat a.addr a.bytes)
  let s := match r.1 with
    | some v => s.writeBytes a.addr (bytesOfNat a.bytes v)
    | none => s
  (if r.2.2.2 then s.atomicTrigger (a.addr / 1048576 % 16384) a else s, r.2.1, r.2.2.1)

/-! ## The instructions -/

/-- The permission of an atomic, as a lookup names it: A. -/
def permA : Perms := 1#3

/-- The place of a DRAM location, for the scopes of fences (07 R99). -/
def DramAt.place (p : DramAt) : Place :=
  if p.tier ≠ 0 then .system else if p.inter then .package else .die p.die

/-- The task's queue entries and atomics that touch any of n bytes at a virtual address (07 R103). -/
def State.sameDram (s : State) (va n : Nat) : List Nat :=
  (((s.core s.cur.1).queues.dq.filter fun e => e.2.ctx == s.cur.2 && e.2.epoch == s.curThread.slot.epoch &&
      (e.2.kind == .gather || overlap e.2.va e.2.len va n)).map fun e => e.2.id) ++ s.sameAtomics va n

/-- Where the value of an atomic goes: its width decides how it is extended (10 R195, 16 R303). -/
def atomicDest (op : AOp) (bytes : Nat) (d : XName) : Op Dest := do
  if op = .radd then pure .none
  else lateDest d (if op = .vbmin then 8 else bytes) (op == .min || op == .max) false

/-- An atomic on ULM at a map address whose checks have passed: at once for an activation on its home core, else in flight. -/
def atomicUlm (op : AOp) (near : Bool) (bytes addr : Nat) (v expect : Quad) (d : XName) (trigger : BitVec 6) : Op Unit := do
  let s ← get
  if s.cur.2 = 16 ∧ addr / 1048576 = s.cur.1 then do
    awaitLocal .a (addr % 1048576) bytes
    let s ← get
    let r := s.ulmAtomic ⟨op, bytes, v, expect, addr, none, .none, near, trigger⟩
    set (r.1.orFlags r.2.2)
    if op = .radd then pure ()
    else writeX d (loadValue (if op = .vbmin then 8 else bytes) (op == .min || op == .max) false
      (bytesOfNat bytes r.2.1.toNat)) false
  else do
    let dst ← atomicDest op bytes d
    let before := (← get).nearEvents
    let _ ← pushMap .a addr bytes (if near then before else [])
      (.atomic ⟨op, bytes, v, expect, addr, none, dst, near, trigger⟩)
    pure ()

/-- An atomic on DRAM: it waits at issue until its translation is known. -/
def atomicDram (op : AOp) (bytes va : Nat) (v expect : Quad) (d : XName) (trigger : BitVec 6) : Op Unit := do
  let s ← get
  let t := TlbId.core s.cur.1
  let ctx := s.contextOf s.cur.1
  match s.look t ctx va permA with
  | .hit p => do
    let dst ← atomicDest op bytes d
    let s ← get
    let waits := s.sameDram va bytes ++ (if p.order = 2 then [] else s.fenceWaits .a)
      ++ s.fencesOn fun q => q.getLsbD Cls.a.bit && q.getLsbD Cls.q.bit
    let _ ← pushAfter (some .a) p.place waits (.atomic ⟨op, bytes, v, expect, va, some p, dst, false, trigger⟩)
    pure ()
  | .miss => stop (.waitWith (s.startMiss t ctx va permA) (.miss va))
  | .busy => stop .wait
  | .cause c =>
    if c = Cause.pageFault then
      stop (.waitWith (s.enterFault t ctx va permA (.atomic s.cur.1 s.cur.2)) (.page va))
    else trap c (BitVec.ofNat 64 va)

/-- An atomic: b is the operand, a the address; `reads` has d read as the expected value. -/
def atomicOp (op : AOp) (bytes : Nat) (d : XName) (a b : Src) (trigger : BitVec 6) : State → Result := plain (do
  let expect ← if op = .cas then readDest d else do
    (if op = .radd then pure () else destReady d)
    pure XReg.zero
  let r ← readSrc2 a b
  let v := r.2.val
  if r.1.tag then do
    match ← accessCheck r.1 needA 0 bytes bytes with
    | .local o => atomicUlm op true bytes (ulmAddr (← get).cur.1 o) v expect.val d trigger
    | .map m => do
      let home : Bool := match windowOf (← get).grade m bytes with
        | .ulm _ _ => true
        | _ => false
      require home Cause.mapAddress (BitVec.ofNat 64 m)
      atomicUlm op false bytes m v expect.val d trigger
  else do
    let va := (Quad.low r.1.val).toNat
    require (decide (va < 144115188075855872)) Cause.dramOperand (a.reg.setWidth 64)
    require (va % bytes == 0) Cause.misaligned (BitVec.ofNat 64 va)
    atomicDram op bytes va v expect.val d trigger)

/-- Bytes of an ordinary atomic's width. -/
def zBytes (z : Bool) : Nat := if z then 8 else 4

def execAadd (d : XName) (a b : Src) (z : Bool) : State → Result := atomicOp .add (zBytes z) d a b 0#6
def execAand (d : XName) (a b : Src) (z : Bool) : State → Result := atomicOp .and (zBytes z) d a b 0#6
def execAor (d : XName) (a b : Src) (z : Bool) : State → Result := atomicOp .or (zBytes z) d a b 0#6
def execAxor (d : XName) (a b : Src) (z : Bool) : State → Result := atomicOp .xor (zBytes z) d a b 0#6
def execAmin (d : XName) (a b : Src) (z : Bool) : State → Result := atomicOp .min (zBytes z) d a b 0#6
def execAmax (d : XName) (a b : Src) (z : Bool) : State → Result := atomicOp .max (zBytes z) d a b 0#6
def execAminu (d : XName) (a b : Src) (z : Bool) : State → Result := atomicOp .minu (zBytes z) d a b 0#6
def execAmaxu (d : XName) (a b : Src) (z : Bool) : State → Result := atomicOp .maxu (zBytes z) d a b 0#6
def execAswp (d : XName) (a b : Src) (z : Bool) : State → Result := atomicOp .swap (zBytes z) d a b 0#6
def execAcas (d : XName) (a b : Src) (z : Bool) : State → Result := atomicOp .cas (zBytes z) d a b 0#6
def execAfadd (d : XName) (a b : Src) (z : Bool) : State → Result := atomicOp .fadd (zBytes z) d a b 0#6
def execAfmin (d : XName) (a b : Src) (z : Bool) : State → Result := atomicOp .fmin (zBytes z) d a b 0#6
def execAfmax (d : XName) (a b : Src) (z : Bool) : State → Result := atomicOp .fmax (zBytes z) d a b 0#6
def execRadd (a b : Src) (z : Bool) : State → Result := atomicOp .radd (zBytes z) 0#5 a b 0#6

/-- A class of 0 is illegal (R195). -/
def execAaddTz (d : XName) (a b : Src) (k : BitVec 6) : State → Result := fun s =>
  if k = 0#6 then plain illegal s else atomicOp .add 8 d a b k s

def execRaddTz (a b : Src) (k : BitVec 6) : State → Result := fun s =>
  if k = 0#6 then plain illegal s else atomicOp .radd 8 0#5 a b k s

/-! ## The homes -/

/-- The home has performed an atomic: its reply is on the way. -/
def State.atomicDone (s : State) (r : Req) (a : Atomic) (v : Quad) (fl : FpFlags) (failed : Option (Word × BitVec 7)) :
    State :=
  s.replace { r with body := .atomicReply a.dst v fl failed }

/-- The atomic at the head of a core's inbox is performed while no activation runs (10 R196, 07 R104). -/
def execUlmAtomic (core : Nat) (s : State) : Result :=
  let c := s.core core
  .next (match c.queues.inbox with
    | .atomic id :: rest =>
      if c.activation.isSome then s
      else
        let s := s.setQueues core { c.queues with inbox := rest }
        match s.req id with
        | some r =>
          match r.body with
          | .atomic a =>
            let o := s.ulmAtomic a
            o.1.atomicDone r a o.2.1 o.2.2 none
          | _ => s
        | none => s
    | _ => s)

/-- A strongly ordered atomic follows its core's earlier strongly ordered entries and atomics (07 R107). Across a link a task's
atomics to one page are performed in issue order (28 R397). -/
def State.atomicOpen (s : State) (r : Req) (p : DramAt) : Bool :=
  (decide (p.order ≠ 1) || (s.core r.core).queues.dq.all fun e => !(decide (e.2.id < r.id) && s.entrySO r.core e.2)) &&
    s.reqs.all fun q => !(q.core == r.core && decide (q.id < r.id) &&
      match q.body with
      | .atomic b => b.phys.any fun x => (x.order == 1 && p.order == 1) ||
          (decide (p.tier ≠ 0) && q.task == r.task && x.ctx == p.ctx && x.va / p.page == p.va / p.page)
      | _ => false)

/-- The house core, or the far end of its link, performs a DRAM atomic (27 R392); it can meet an uncorrectable error, a
peer's refusal or an unavailable tier (10 R197, 28 R398). While its link retrains it waits (28 R400), and while its house core or a
pseudo-channel of it is updated (29 R415). -/
def State.houseAtomic (s : State) (r : Req) (a : Atomic) (p : DramAt) : State :=
  let part := s.contextOf r.core
  let port := if p.tier = 1 then 16 else p.port
  let link := if p.tier = 0 then 2#2 else s.linkState part port
  if link = 1#2 ∨ s.calibrating p ∨ s.houseWaits p then s
  else if link ≠ 2#2 then s.atomicDone r a 0#128 0#5 (some (BitVec.ofNat 64 a.addr, Cause.tierUnavailable))
  else
    match s.dramModify r.task p a.bytes a.write with
    | (.error c, s) => s.atomicDone r a 0#128 0#5 (some (BitVec.ofNat 64 a.addr, c))
    | (.ok bs, s) =>
      let o := a.perform (natOfBytes bs)
      let s := if o.2.2.2 then s.atomicTrigger r.core a else s
      s.atomicDone r a o.2.1 o.2.2.1 none

def execHouseAtomic (id : Nat) (s : State) : Result :=
  .next (match s.req id with
    | some r =>
      match r.body with
      | .atomic a =>
        match a.phys with
        | some p => if s.mayRun r ∧ s.atomicOpen r p then s.houseAtomic r a p else s
        | none => s
      | _ => s
    | none => s)

/-- "DRAM transfer fault" of an atomic (10 R197): at its task's next boundary, or in the error queue. -/
def State.deferTransfer (s : State) (r : Req) (addr : Word) (cause : BitVec 7) : State :=
  if s.present r then s.defer r.core r.ctx ⟨Cause.dramTransfer, addr, cause⟩
  else s.postError (s.partOf r.core) (coreRecord Cause.dramTransfer r.core addr (cause.setWidth 64))

/-- The reply of an atomic arrives (10 R197, R198): its flags are ORed in, and its value fills d. -/
def execAtomicReply (id : Nat) (s : State) : Result :=
  .next (match s.req id with
    | some r =>
      match r.body with
      | .atomicReply dst v fl failed =>
        if !s.mayDeliver dst then s
        else
        let s := if s.present r then s.landFlags r.core r.ctx fl else s
        let s := match failed with
          | some f => s.deferTransfer r f.1 f.2
          | none => s
        (s.carry r.core r.place true (bytesOfNat 16 v.toNat)).deliver r dst (bytesOfNat 16 v.toNat) false
      | _ => s
    | none => s)

end Sys2Proof.Machine
end

