-- ==== Sys2Proof/Machine/Copy.lean ====
section
/-!
DEFINITION. Copy.lean: XSTRM (12 R240), XCOPY and the commands of a stage's copy engine (12 R253 to R255, 06 R92, R95).
-/

namespace Sys2Proof.Machine

/-! ## XSTRM (12 R240) -/

def execXstrm (a b : Src) : State → Result := plain (do
  let r ← readSrc2 a b
  let va := Quad.low r.1.val
  let v := Quad.low r.2.val
  let len := (v.extractLsb' 32 32).toNat
  let fmt := v.extractLsb' 8 4
  require (va.extractLsb' 57 7 == 0#7 && v.extractLsb' 23 9 == 0#9 && v.extractLsb' 12 4 == 0#4 && fmt != 0#4 && fmt != 15#4 &&
    decide (16 ≤ len) && decide (len ≤ 16777216) && sizeRule fmt.toNat len) Cause.engineOperand 0#64
  unitRequest
  let s ← get
  appendSegment (v.extractLsb' 0 8).toNat (.dram s.cur.1 va.toNat len fmt (segCounter v) [] none))

/-! ## XCOPY (12 R253) -/

def Command.kind (c : Command) : Nat := recField c.words 0 0 4
def Command.count (c : Command) : Nat := recField c.words 0 4 3 + 1
def Command.status (c : Command) : Nat := recField c.words 0 7 5
def Command.counter (c : Command) : Nat := recField c.words 0 12 6
def Command.counts (c : Command) : Bool := recField c.words 0 18 1 == 1
def Command.length (c : Command) : Nat := recField c.words 1 0 32

/-- The doubleword at 0x08 or 0x10. -/
def Command.dword (c : Command) (i : Nat) : Nat := recField c.words i 0 32 + 2 ^ 32 * recField c.words (i + 1) 0 32

def Command.va (c : Command) : Nat := c.dword 2 % 2 ^ 57
def Command.list (c : Command) : Nat := c.dword 4 % 2 ^ 18
def Command.rows (c : Command) : Nat := c.dword 4 / 2 ^ 18 % 2 ^ 16

/-- Destination i: core pair, tile, counter, enable. -/
def Command.destCore (c : Command) (i : Nat) : Nat := recField c.words (8 + i) 0 14
def Command.destTile (c : Command) (i : Nat) : Nat := recField c.words (8 + i) 14 6
def Command.destCounter (c : Command) (i : Nat) : Option Nat :=
  if recField c.words (8 + i) 26 1 = 1 then some (recField c.words (8 + i) 20 6) else none

/-- The bytes of DRAM or ULM that a command reads. -/
def Command.total (c : Command) : Nat := if c.kind = 1 then c.rows * 2 ^ c.length else c.length

/-- A command's fields are well formed. -/
def Command.formed (c : Command) : Bool :=
  let k := c.kind
  let w (i : Nat) : Nat := recField c.words i 0 32
  w 0 / 2 ^ 19 == 0 && decide (k ≤ 4) &&
    (if k = 1 then decide (2 ≤ c.length) && decide (c.length ≤ 16) else if k = 2 ∨ k = 4 then c.length == 0 else true) &&
    (if k = 2 then decide (c.dword 2 < 64) else if k = 3 then decide (c.dword 2 < 2 ^ 18) else decide (c.dword 2 < 2 ^ 57)) &&
    (if k = 1 then decide (c.dword 4 < 2 ^ 34) else c.dword 4 == 0) && c.dword 6 == 0 &&
    (List.range 8).all (fun i => w (8 + i) / 2 ^ 27 == 0 && (decide (i < c.count) || w (8 + i) == 0)) &&
    (k != 4 || (c.count == 1 && c.destTile 0 == 0)) &&
    (k != 3 || decide (c.dword 2 + c.length ≤ 262144)) && (k != 1 || decide (c.list + 4 * c.rows ≤ 262144))

/-- Is a kind 2 source tile also a destination? -/
def Command.selfCopy (c : Command) (core : Nat) : Bool :=
  c.kind == 2 && (List.range c.count).any fun i => c.destCore i == core && c.destTile i == c.dword 2

/-- The ULM bytes a command of kind 1 or 3 reads on its issuing core. -/
def Command.ulm (c : Command) : Option (Nat × Nat) :=
  if c.kind = 1 then some (c.list, 4 * c.rows) else if c.kind = 3 then some (c.dword 2, c.length) else none

/-- The first byte of an extent that user mode may not name. -/
def firstWing (e : Option (Nat × Nat)) : Option Nat :=
  e.bind fun x => if x.2 ≠ 0 ∧ 0x38000 < x.1 + x.2 then some (Nat.max x.1 0x38000) else none

def execXcopy (a : Src) : State → Result := plain (do
  let w ← readRecord a
  let s ← get
  let st := stageOf s.cur.1
  let g := s.stage st
  let c : Command :=
    { words := w, core := s.cur.1, ctx := s.cur.2, epoch := s.curThread.slot.epoch, order := g.commandOrder, started := false
      source := .waiting, tile := 0, indices := [], data := [], done := 0, format := 0#4, dests := [], suspended := none }
  let c := { c with dests := List.replicate c.count .waiting }
  require (c.formed && (c.status == 0 || s.cur.2 != 16) && !c.selfCopy s.cur.1) Cause.engineOperand 0#64
  match (if s.img.mode = .user then firstWing c.ulm else none) with
  | some off => trap Cause.wings (BitVec.ofNat 64 off)
  | none => pure ()
  match (List.range c.count).find? fun i => decide (80 ≤ rowOf (c.destCore i)) with
  | some i => trap Cause.mapAddress (BitVec.ofNat 64 (c.destCore i))
  | none => pure ()
  unitRequest
  await (decide (g.commands.length < 64) && g.halted == 0)
  set (s.setStage st { g with commands := g.commands.set g.commandOrder c, commandOrder := g.commandOrder + 1 }))

/-! ## The source of a command (12 R254) -/

def State.setCommand (s : State) (st i : Nat) (c : Command) : State :=
  s.setStage st { s.stage st with commands := (s.stage st).commands.set i c }

/-- The source of a command has failed: every destination will fault. A drained tile returns with its fault bit. -/
def State.failSource (s : State) (st i : Nat) (c : Command) (cause : BitVec 7) (d0 d1 : Nat) : State :=
  let s := if c.source = .draining ∨ c.source = .moving ∧ c.kind = 4 then
      s.setTile c.core c.tile { (s.core c.core).tile c.tile with owner := false, state := 2#2, fault := true }
    else s
  s.setCommand st i { c with source := .failed cause (BitVec.ofNat 64 d0) (BitVec.ofNat 64 d1), suspended := none }

/-- A failed DRAM access of a command (24 R345): the address, then the underlying cause. -/
def State.failDram (s : State) (st i : Nat) (c : Command) (va : Nat) (cause : BitVec 7) : State :=
  s.failSource st i c Cause.dramTransfer va cause.toNat

/-- The source of a command is read, or all written. A drained tile returns ready. -/
def State.sourceDone (s : State) (st i : Nat) (c : Command) : State :=
  let s := if c.kind = 2 ∨ c.kind = 4 then
      s.setTile c.core c.tile { (s.core c.core).tile c.tile with owner := false, state := 2#2, fault := false }
    else s
  s.setCommand st i { c with source := .ready }

/-- The virtual address of byte i of a command's DRAM side, and the bytes contiguous there. -/
def Command.at (c : Command) (i : Nat) : Nat × Nat :=
  if c.kind = 1 then
    let k := 2 ^ c.length
    ((c.va + c.indices.getD (i / k) 0 * k + i % k) % 2 ^ 57, k - i % k)
  else ((c.va + i) % 2 ^ 57, (if c.kind = 4 then c.data.length else c.length) - i)

/-- Write bytes to DRAM through a unit's TLB from byte i on; the fuel is the number of bytes. -/
def State.pushBytes (tlb : TlbId) (ctx : Nat) (at' : Nat → Nat × Nat) (bs : List Byte) : Nat → Nat → State → Nat × Moved × State
  | 0, i, s => (i, .done, s)
  | n + 1, i, s =>
    if bs.length ≤ i then (i, .done, s)
    else
      let a := at' i
      match s.look tlb ctx a.1 2#3 with
      | .hit p =>
        let k := Nat.min (Nat.min p.run a.2) (p.page - p.phys % p.page)
        match s.dramWrite unitTask p ((bs.drop i).take k) with
        | (.ok _, s) => State.pushBytes tlb ctx at' bs n (i + k) s
        | (.error c, s) => (i, .fault a.1 c, s)
      | .cause c => (i, .fault a.1 c, s)
      | .miss => (i, .miss a.1, s)
      | .busy => (i, .busy, s)

/-- The addresses of the pages that a command touches, none while they are not known: those of a row gather before its indices are
read, and those of a tile that is still to be named. -/
def State.commandPages (s : State) (c : Command) : Option (List Nat) :=
  if c.kind = 1 then
    if c.source = .waiting ∧ c.rows ≠ 0 then none
    else some (c.indices.flatMap fun i =>
      let a := (c.va + i * 2 ^ c.length) % 2 ^ 57
      [a, (a + 2 ^ c.length - 1) % 2 ^ 57])
  else if c.kind = 4 ∧ !c.started then none
  else some (pagesFrom c.va (if c.kind = 4 then ((s.core c.core).tile c.tile).size.toNat else c.total))

/-- Has a command DRAM accesses still to make? -/
def Command.movesDram (c : Command) : Bool :=
  (c.source == .moving || c.source == .waiting || c.source == .draining) && c.kind != 2 && c.kind != 3

/-- Does a command still to make DRAM accesses reach a strongly ordered page, or one whose order the copy engine does not know
(log 75)? -/
def State.commandSO (s : State) (st : Nat) (c : Command) : Bool :=
  c.movesDram && match s.commandPages c with
    | some l => l.any fun va => s.maySO (.copy st) (s.contextOfStage st) va
    | none => true

/-- The first command that waits for the order of an earlier one and has a page of unknown order: its page and permissions. -/
def State.commandAhead (s : State) (st : Nat) : Option (Nat × Perms) :=
  (s.stage st).commands.findSome? fun e =>
    if e.2.started ∧ e.2.suspended.isNone ∧ e.2.movesDram then
      (s.unknownPage (.copy st) (s.contextOfStage st) ((s.commandPages e.2).getD [])).map fun va =>
        (va, if e.2.kind = 4 then 2#3 else 4#3)
    else none

/-- A strongly ordered command follows the earlier ones that are (06 R87). -/
def State.commandOpen (s : State) (st : Nat) (c : Command) : Bool :=
  !s.commandSO st c || (s.stage st).commands.all fun e => !(decide (e.2.order < c.order) && s.commandSO st e.2)

/-- The rest of a command's DRAM accesses, as far as they go (06 R88). -/
def State.moveCommand (s : State) (st i : Nat) (c : Command) : State :=
  let t := TlbId.copy st
  let ctx := s.contextOfStage st
  let need : Perms := if c.kind = 4 then 2#3 else 4#3
  let r : Command × Moved × State := if c.kind = 4 then
      match s.pushBytes t ctx c.at c.data (c.data.length + 1) c.done with
      | (n, m, s) => ({ c with done := n }, m, s)
    else
      match s.pullBytes t ctx c.at c.total (c.total + 1) c.data with
      | (bs, m, s) => ({ c with data := bs }, m, s)
  let c := r.1
  let s := r.2.2.setCommand st i c
  match r.2.1 with
  | .done => s.sourceDone st i c
  | .miss va => s.startMiss t ctx va need
  | .busy => s
  | .fault va cause =>
    if cause = Cause.pageFault then
      (s.setCommand st i { c with suspended := some (va / 65536) }).enterFault t ctx va need (.command st i)
    else s.failDram st i c va cause

/-- A tile that has been drained: its trailer is checked, and its bytes are taken (06 R95, 05 R74). -/
def State.drainSource (s : State) (st i : Nat) (c : Command) : State :=
  let t := (s.core c.core).tile c.tile
  let data := s.tileBytes c.core t
  if t.trailer ∧ !trailerOk t.format.toNat data (s.readBytes (ulmAddr c.core (t.base.toNat + t.size.toNat)) 16) then
    s.failSource st i c Cause.trailerChecksum 0 c.tile
  else
    let c := { c with data := data, format := t.format }
    if c.kind = 4 then s.setCommand st i { c with source := .moving } else s.sourceDone st i c

/-- A kind 4 command's counter belongs to no core of the partition (12 R255). -/
def State.strayCounter (s : State) (c : Command) : Bool :=
  c.kind == 4 && !(isCore (c.destCore 0) && s.sameStage c.core (stageOf (c.destCore 0)))

/-- The next piece of work on a command's source. -/
def State.advance (s : State) (st i : Nat) (c : Command) : State :=
  match c.source with
  | .waiting =>
    if s.strayCounter c then s.failSource st i c Cause.partitionBoundary 0 0
    else if c.kind = 3 then
      s.setCommand st i { c with data := s.readBytes (ulmAddr c.core (c.dword 2)) c.length, source := .ready }
    else if c.kind = 2 ∨ c.kind = 4 then
      let t := (s.core c.core).tile c.tile
      if t.state = 2#2 ∧ !t.owner then
        (s.setTile c.core c.tile (t.taken st 3#2)).setCommand st i { c with source := .draining }
      else s
    else
      let words := if c.kind = 1 then (wordsOf (s.readBytes (ulmAddr c.core c.list) (4 * c.rows))).map BitVec.toNat else []
      s.setCommand st i { c with source := .moving, indices := words }
  | .draining => s.drainSource st i c
  | .moving => s.moveCommand st i c
  | _ => s

/-- Has a started command work on its source that can be done now? -/
def State.canAdvance (s : State) (st : Nat) (c : Command) : Bool :=
  c.started && c.suspended.isNone &&
    match c.source with
    | .waiting => !(c.kind == 2 || c.kind == 4) || s.strayCounter c ||
        (let t := (s.core c.core).tile c.tile; t.state == 2#2 && !t.owner)
    | .draining => true
    | .moving =>
      s.commandOpen st c &&
        (let need : Perms := if c.kind = 4 then 2#3 else 4#3
         let ctx := s.contextOfStage st
         let va := (c.at (if c.kind = 4 then c.done else c.data.length)).1
         match s.look (.copy st) ctx va need with
         | .miss => !s.missing (.copy st) ctx (va / 65536)
         | .busy => false
         | _ => true)
    | _ => false

/-- The copy engine goes on with the oldest started command that can, else starts the next in order of acceptance, else
looks up a page whose order it does not know. The spec gives a kind 4 command no field for its tile: which it is is free
(log 11). -/
def execCopyCommandStart (stage : Nat) (s : State) : Result :=
  let g := s.stage stage
  .next (match g.commands.find? fun e => s.canAdvance stage e.2 with
    | some e => s.advance stage e.1 e.2
    | none =>
      match g.commands.find? fun e => !e.2.started with
      | some e =>
        if g.halted ≠ 0 then s
        else
          let tile := if e.2.kind = 4 then (Config.freeTile s.freeIx).toNat else e.2.dword 2 % 64
          { s.setCommand stage e.1 { e.2 with started := true, tile := tile } with freeIx := s.freeIx + 1 }
      | none =>
        match s.commandAhead stage with
        | some a => s.startMiss (.copy stage) (s.contextOfStage stage) a.1 a.2
        | none => s)

/-! ## The destinations (12 R255, 06 R92) -/

def State.endDest (s : State) (st i k : Nat) (c : Command) (d : CopyDest) : State :=
  s.setCommand st i { c with dests := c.dests.set k d }

/-- Does a kind 3 command name its own destination's extent (12 R254)? -/
def Command.inPlace (c : Command) (t : Tile) (k : Nat) : Bool :=
  c.kind == 3 && c.count == 1 && c.destCore k == c.core && t.base.toNat == c.dword 2 && t.size.toNat == c.length

/-- What destination k receives, or the cause that faults it with its details. -/
def Command.filling (c : Command) (t : Tile) (k free : Nat) : Except (BitVec 7 × Word × Word) Filling :=
  let own (x : BitVec 7) : BitVec 7 × Word × Word := (x, BitVec.ofNat 64 k, BitVec.ofNat 64 (c.destTile k))
  match c.source with
  | .failed cause d0 d1 => .error (cause, if cause = Cause.trailerChecksum then BitVec.ofNat 64 k else d0, d1)
  | _ =>
    if t.size = 0#18 then .error (own Cause.tileSize)
    else if c.kind = 2 then
      match convertTile c.format.toNat c.data t.format.toNat t.size.toNat free with
      | .ok f => .ok f
      | .error x => .error (own x)
    else if c.data.length = t.size.toNat then .ok ⟨c.data, none⟩
    else .error (own Cause.tileSize)

/-- A destination ends well: its counter is bumped. -/
def State.destOk (s : State) (st i k : Nat) (c : Command) : State :=
  let s := s.endDest st i k c .filled
  match c.destCounter k with
  | some n => s.unitBump st (c.destCore k) n 1
  | none => s

/-- The one destination of a kind 4 command, whose data lie in DRAM. -/
def State.endWrite (s : State) (st i : Nat) (c : Command) : State :=
  match c.source with
  | .failed cause d0 d1 => (s.endDest st i 0 c .failed).postCopy st c.core cause d0 d1
  | _ => s.destOk st i 0 c

/-- A destination tile is taken, and then filled or faulted. -/
def State.fillDest (s : State) (st i k : Nat) (c : Command) : State :=
  let core := c.destCore k
  let tile := c.destTile k
  let t := (s.core core).tile tile
  match c.dests[k]? with
  | some .waiting =>
    if !(isCore core && s.sameStage c.core (stageOf core)) then
      let s := if s.grade.hasCore core then s.failFill core tile else s
      (s.endDest st i k c .failed).postCopy st core Cause.partitionBoundary (BitVec.ofNat 64 k) (BitVec.ofNat 64 tile)
    else if t.fillable then (s.setTile core tile (t.taken st 1#2)).endDest st i k c .filling
    else s
  | some .filling =>
    match c.filling t k s.freeIx with
    | .ok f =>
      let s := s.landFill core tile f (!c.inPlace t k)
      { s.destOk st i k c with freeIx := s.freeIx + (elemCount t.format.toNat t.size.toNat).getD 0 }
    | .error e => ((s.failFill core tile).endDest st i k c .failed).postCopy st core e.1 e.2.1 e.2.2
  | _ => s

/-- Has the source of a command ended? -/
def Command.sourced (c : Command) : Bool :=
  match c.source with
  | .ready => true
  | .failed _ _ _ => true
  | _ => false

def execCopyDestinationFill (stage cmd dest : Nat) (s : State) : Result :=
  .next (match (s.stage stage).commands.find cmd with
    | none => s
    | some c =>
      if !c.sourced then s
      else if c.kind = 4 then if dest = 0 ∧ c.dests[0]? = some .waiting then s.endWrite stage cmd c else s
      else s.fillDest stage cmd dest c)

/-- A destination has ended. -/
def CopyDest.ended : CopyDest → Bool
  | .filled => true
  | .failed => true
  | _ => false

/-- All destinations have ended: the issuer's counter, then the status mask. -/
def execCopyCommandComplete (stage cmd : Nat) (s : State) : Result :=
  .next (match (s.stage stage).commands.find cmd with
    | none => s
    | some c =>
      if !c.dests.all CopyDest.ended then s
      else
        let g := s.stage stage
        let s := s.setStage stage { g with commands := g.commands.del cmd }
        let ok := c.dests.map fun d => d == .filled
        let n := (ok.filter id).length
        let s := if c.counts ∧ n ≠ 0 then s.unitBump stage c.core c.counter n else s
        let v := (s.thread c.core c.ctx).slot
        if v.status = .free ∨ v.epoch ≠ c.epoch ∨ c.ctx = 16 then s
        else s.windowX none c.core c.ctx c.status 0 (bytesOfNat 16 (bitsOf ok)))

end Sys2Proof.Machine
end

