-- ==== Sys2Proof/Machine/Span.lean ====
section
/-!
DEFINITION. Span.lean: answer records (14 R273, R274), the span list of a ray and its front (R278 to R282).
-/

namespace Sys2Proof.Machine

/-! ## FP32 steps, rounded to nearest even -/

def val32 (b : BitVec 32) : FVal := Fmt.fp32.unpack b.toNat

def bits32 (x : FVal) : BitVec 32 := BitVec.ofNat 32 (Fmt.fp32.round false .rne x).1

/-- An exact operation rounded once; one without a value gives a free one (log 22). -/
def step32 (f : FVal → FVal → Option FVal) (x y : FVal) : BitVec 32 :=
  match f x y with
  | some v => bits32 v
  | none => Config.rayInvalid x y

def FVal.plus (x y : FVal) : Option FVal := x.add .rne y
def FVal.minus (x y : FVal) : Option FVal := x.add .rne y.neg
def FVal.quot (x y : FVal) : Option FVal := (x.div y).1

def add32 (a b : BitVec 32) : BitVec 32 := step32 FVal.plus (val32 a) (val32 b)
def sub32 (a b : BitVec 32) : BitVec 32 := step32 FVal.minus (val32 a) (val32 b)
def mul32 (a b : BitVec 32) : BitVec 32 := step32 FVal.mul (val32 a) (val32 b)
def div32 (a b : BitVec 32) : BitVec 32 := step32 FVal.quot (val32 a) (val32 b)

/-- e^-a, correctly rounded. -/
def expn32 (a : BitVec 32) : BitVec 32 :=
  if (val32 a).isNaN then Config.rayInvalid (val32 a) (val32 a) else BitVec.ofNat 32 (Fmt.fp32.expNeg .rne a.toNat).1

def one32 : BitVec 32 := 0x3F800000#32
def inf32 : BitVec 32 := 0x7F800000#32

/-- 1 - e^-a. -/
def opacity32 (a : BitVec 32) : BitVec 32 := sub32 one32 (expn32 a)

/-- Comparisons of FP32 values; one with a NaN is false. -/
def lt32 (a b : BitVec 32) : Bool := !(val32 a).isNaN && !(val32 b).isNaN && (val32 a).cmp (val32 b) == .lt
def le32 (a b : BitVec 32) : Bool := !(val32 a).isNaN && !(val32 b).isNaN && (val32 a).cmp (val32 b) != .gt
def eq32 (a b : BitVec 32) : Bool := !(val32 a).isNaN && !(val32 b).isNaN && (val32 a).cmp (val32 b) == .eq

def max32 (a b : BitVec 32) : BitVec 32 := if lt32 a b then b else a
def min32 (a b : BitVec 32) : BitVec 32 := if lt32 b a then b else a

/-- x + e^-τ y for a τ of sign neg and magnitude m * 2^e, rounded once both bounds of the power round alike. -/
def fusedRound (x y : FVal) (neg : Bool) (m : Nat) (e : Int) : Nat → Nat → BitVec 32
  | fuel, p =>
    let at' (upper : Bool) : BitVec 32 := step32 FVal.plus x (((expValue neg m e p upper).mul y).getD (.nan false))
    match fuel with
    | 0 => at' false
    | fuel + 1 => if at' false = at' true then at' false else fusedRound x y neg m e fuel (2 * p)

/-- x + e^-τ y, one value rounded to FP32 once (14 R281). A power so near 1, or so near 0, that no bound of it is to be had is taken
beside it: what is rounded then rounds alike. -/
def fused32 (tau x y : BitVec 32) : BitVec 32 :=
  match val32 tau with
  | .nan _ => Config.rayInvalid (val32 tau) (val32 y)
  | .inf _ => add32 x (mul32 0#32 y)
  | .num neg m e =>
    if m = 0 then add32 x y
    else if (Nat.log2 m : Int) + e < -60 ∨ 10 ≤ (Nat.log2 m : Int) + e then
      let f : FVal := if 10 ≤ (Nat.log2 m : Int) + e then .num false 1 (if neg then 3000 else -3000)
        else .num false (if neg then 2 ^ 200 + 1 else 2 ^ 200 - 1) (-200)
      step32 FVal.plus (val32 x) ((f.mul (val32 y)).getD (.nan false))
    else fusedRound (val32 x) (val32 y) neg m e 5 160

/-- (1 - e^-τ) c, one value rounded to FP32 once (14 R281): c + e^-τ (-c), but for a τ so small that the difference is the product
of c and a value just below τ. -/
def shade32 (tau c : BitVec 32) : BitVec 32 :=
  match val32 tau with
  | .num neg m e =>
    if m ≠ 0 ∧ (Nat.log2 m : Int) + e < -60 then step32 FVal.mul (val32 c) (.num neg (m * (2 ^ 200 - 1)) (e - 200))
    else fused32 tau c (c ^^^ 0x80000000#32)
  | _ => fused32 tau c (c ^^^ 0x80000000#32)

/-- A boundary of the list: the two zeros are one, and no order of arrival may show which of them came first (14 R283, log 77). -/
def bound32 (t : BitVec 32) : BitVec 32 := if t = 0x80000000#32 then 0#32 else t

/-! ## Answers (14 R273, R274) -/

/-- An answer. -/
structure Answer where
  t0 : BitVec 32
  t1 : BitVec 32
  tau : BitVec 16
  e : BitVec 16 × BitVec 16 × BitVec 16
  conf : BitVec 8
  kind : BitVec 3
  source : BitVec 16
  prim : BitVec 64
deriving DecidableEq, Repr

def val16 (b : BitVec 16) : FVal := Fmt.fp16.unpack b.toNat
def bits16 (x : FVal) : BitVec 16 := BitVec.ofNat 16 (Fmt.fp16.round false .rne x).1

/-- The FP16 value of an FP32 one, rounded to nearest even. -/
def narrow16 (a : BitVec 32) : BitVec 16 := bits16 (val32 a)

/-- An FP16 value as FP32. -/
def widen32 (a : BitVec 16) : BitVec 32 := bits32 (val16 a)

def FVal.isNeg : FVal → Bool
  | .nan _ => false
  | .inf s => s
  | .num s m _ => s && m != 0

def FVal.isInf : FVal → Bool
  | .inf _ => true
  | _ => false

/-- Is an emission component no NaN, not infinite, not negative? -/
def goodEmission (b : BitVec 16) : Bool := !(val16 b).isNaN && !(val16 b).isInf && !(val16 b).isNeg

/-- The rules of R274 on an answer's fields, but for the kind and the reserved bits. -/
def Answer.formed (a : Answer) : Bool :=
  le32 a.t0 a.t1 && !(val16 a.tau).isNaN && !(val16 a.tau).isNeg && !((val16 a.tau).isInf && lt32 a.t0 a.t1) &&
    goodEmission a.e.1 && goodEmission a.e.2.1 && goodEmission a.e.2.2

/-- The number at an offset of a record. -/
def recNat (bs : List Byte) (off n : Nat) : Nat := natOfBytes ((bs.drop off).take n)

/-- An answer record's answer, if it is well formed. -/
def decodeAnswer (bs : List Byte) : Option Answer :=
  let w := recNat bs 16 4
  let h (off : Nat) : BitVec 16 := BitVec.ofNat 16 (recNat bs off 2)
  let a : Answer := ⟨BitVec.ofNat 32 (recNat bs 0 4), BitVec.ofNat 32 (recNat bs 4 4), h 8, (h 10, h 12, h 14), BitVec.ofNat 8 w,
    BitVec.ofNat 3 (w / 256), h 18, BitVec.ofNat 64 (recNat bs 24 8)⟩
  if a.formed ∧ a.kind.toNat < 6 ∧ w / 2048 % 32 = 0 ∧ recNat bs 20 4 = 0 then some a else none

/-- The emission that counts: none with τ = 0 (R274). -/
def Answer.emission (a : Answer) : FVal × FVal × FVal :=
  if (val16 a.tau).isZero then (.num false 0 0, .num false 0 0, .num false 0 0)
  else (val16 a.e.1, val16 a.e.2.1, val16 a.e.2.2)

/-! ## The colour of an interval (14 R273, R279) -/

/-- E / (1 - e^-τ) for 0 < τ below 1,024, rounded once both bounds of the divisor round alike. -/
def colourRound (e : FVal) (m : Nat) (ex : Int) : Nat → Nat → BitVec 32
  | fuel, p =>
    let at' (upper : Bool) : BitVec 32 :=
      step32 FVal.quot e (((FVal.num false 1 0).minus (expValue false m ex p upper)).getD (.nan false))
    match fuel with
    | 0 => at' false
    | fuel + 1 => if at' false = at' true then at' false else colourRound e m ex fuel (2 * p)

/-- c = E / (1 - e^-τ), rounded to FP32. From τ = 1,024 on the divisor is so near 1 that c rounds to E. -/
def colourOf (tau e : FVal) : BitVec 32 :=
  match tau with
  | .num _ m ex =>
    if m = 0 then 0#32
    else if 10 ≤ (Nat.log2 m : Int) + ex then bits32 e
    else colourRound e m ex 5 160
  | _ => bits32 e

/-! ## Entries (14 R279 to R281) -/

/-- What tells two surfaces of one key apart: no order of arrival may (14 R283), and the spec gives no other (log 77). -/
def Span.tie (x : Span) : Nat :=
  (x.source ++ x.tau ++ x.e.1 ++ x.e.2.1 ++ x.e.2.2 ++ x.conf ++ x.a : BitVec 184).toNat

/-- The key of an entry as numbers to compare: start, then whether it is a surface, kind and primitive ID. -/
def Span.before (x y : Span) : Bool :=
  if lt32 x.a y.a then true
  else if lt32 y.a x.a then false
  else if x.form ≠ .surface then decide (y.form = .surface)
  else if y.form ≠ .surface then false
  else if x.kind ≠ y.kind then decide (x.kind < y.kind)
  else if x.prim ≠ y.prim then decide (x.prim < y.prim)
  else decide (x.tie < y.tie)

/-- Insert an entry in key order, after those with its key. -/
def insertSpan (x : Span) : List Span → List Span
  | [] => [x]
  | y :: l => if x.before y then x :: y :: l else y :: insertSpan x l

def sortSpans (l : List Span) : List Span := l.foldl (fun l x => insertSpan x l) []

/-- The τ and E with which an entry is consumed (14 R282). -/
def Span.use (x : Span) : BitVec 32 × (BitVec 32 × BitVec 32 × BitVec 32) :=
  match x.form with
  | .interval =>
    let tau := step32 FVal.mul x.rho (((val32 x.b).minus (val32 x.a)).getD (.nan false))
    let col (c : FVal) : BitVec 32 := if x.rho.isZero then 0#32 else step32 FVal.quot c x.rho
    let one := opacity32 tau
    (tau, mul32 one (col x.sigma.1), mul32 one (col x.sigma.2.1), mul32 one (col x.sigma.2.2))
  | _ => (x.tau, x.e)

/-- Apply to the three components. -/
def map3 {α β : Type} (f : α → β) (x : α × α × α) : β × β × β := (f x.1, f x.2.1, f x.2.2)

def zip3 {α β γ : Type} (f : α → β → γ) (x : α × α × α) (y : β × β × β) : γ × γ × γ := (f x.1 y.1, f x.2.1 y.2.1, f x.2.2 y.2.2)

/-- Cut an interval piece at t where it contains it. -/
def Span.cut (t : BitVec 32) (x : Span) : List Span :=
  if x.form = .interval ∧ lt32 x.a t ∧ lt32 t x.b then [{ x with b := t }, { x with a := t }] else [x]

/-- Does a merged entry cover a piece from p to q, or with p = q a surface at p? -/
def Span.covers (x : Span) (p q : BitVec 32) : Bool := x.form == .merged && le32 x.a p && lt32 p x.b && le32 q x.b

/-- A merged entry absorbs a piece or surface (14 R281): each step is rounded once. -/
def Span.absorb (x : Span) (tau : BitVec 32) (e : BitVec 32 × BitVec 32 × BitVec 32) : Span :=
  { x with tau := add32 x.tau tau, e := zip3 (fused32 x.tau) x.e e }

/-- The two last entries as one (14 R281): each value is rounded once. -/
def Span.merge (x y : Span) : Span :=
  let u := x.use
  let v := y.use
  { x with
    form := .merged, b := y.b, tau := add32 u.1 v.1, e := zip3 (fused32 u.1) u.2 v.2
    conf := if y.conf < x.conf then y.conf else x.conf, kind := 7#3 }

/-- What one answer contributes to a piece: its density and colour sums' shares. -/
structure Share where
  rho : BitVec 32
  sigma : BitVec 32 × BitVec 32 × BitVec 32
  ans : Answer
deriving DecidableEq, Repr

/-- An exact sum; one without a value is a NaN. -/
def exactSum (x y : FVal) : FVal := (x.plus y).getD (.nan false)

/-- Does a contributor's identity come before that of the largest one so far (14 R280)? Where R280 does not say, the smaller source
index does (log 77). -/
def Share.leads (c : Share) (x : Span) (kind : BitVec 3) : Bool :=
  if lt32 x.best c.rho then true
  else if lt32 c.rho x.best then false
  else if c.ans.kind ≠ kind then decide (c.ans.kind < kind)
  else if c.ans.prim ≠ x.prim then decide (c.ans.prim < x.prim)
  else decide (c.ans.source < x.source)

/-- Add a contributor to a piece. `tau` of a piece holds the kind of its largest contributor in its low bits. -/
def Span.add (x : Span) (c : Share) : Span :=
  let lead := c.leads x (x.tau.setWidth 3)
  { x with
    rho := exactSum x.rho (val32 c.rho)
    sigma := zip3 exactSum x.sigma (map3 val32 c.sigma)
    kind := if c.ans.kind = x.kind then x.kind else 7#3
    conf := if c.ans.conf < x.conf then c.ans.conf else x.conf
    best := if lead then c.rho else x.best
    tau := if lead then c.ans.kind.setWidth 32 else x.tau
    source := if lead then c.ans.source else x.source
    prim := if lead then c.ans.prim else x.prim }

/-- A piece with one contributor. -/
def Share.piece (c : Share) (p q : BitVec 32) : Span :=
  { form := .interval, a := p, b := q, rho := val32 c.rho, sigma := map3 val32 c.sigma, best := c.rho
    tau := c.ans.kind.setWidth 32, e := (0#32, 0#32, 0#32), conf := c.ans.conf, kind := c.ans.kind
    source := c.ans.source, prim := c.ans.prim }

/-- A surface entry. -/
def Answer.surface (a : Answer) : Span :=
  { form := .surface, a := a.t0, b := a.t0, rho := .num false 0 0, sigma := (.num false 0 0, .num false 0 0, .num false 0 0)
    best := 0#32, tau := widen32 a.tau, e := map3 bits32 a.emission, conf := a.conf, kind := a.kind, source := a.source
    prim := a.prim }

/-! ## Insertion (14 R279, R280) -/

abbrev ClipKey := BitVec 32 × BitVec 3 × BitVec 64

/-- Does a surface key come after another? -/
def keyAfter (x y : ClipKey) : Bool :=
  if lt32 y.1 x.1 then true
  else if lt32 x.1 y.1 then false
  else if x.2.1 ≠ y.2.1 then decide (y.2.1 < x.2.1)
  else decide (y.2.2 < x.2.2)

def Ray.clipT (r : Ray) : BitVec 32 := (r.clip.map Prod.fst).getD inf32

/-- The overflow count saturates. -/
def Ray.overflowed (r : Ray) (n : Nat) : Ray := { r with overflow := BitVec.ofNat 8 (Nat.min 255 (r.overflow.toNat + n)) }

/-- `clip_at`: what an opaque surface at key k leaves of an entry. -/
def Span.clipAt (k : ClipKey) (x : Span) : Option Span :=
  match x.form with
  | .interval => if le32 k.1 x.a then none else some { x with b := min32 x.b (bound32 k.1) }
  | .surface => if keyAfter (x.a, x.kind, x.prim) k then none else some x
  | .merged => if le32 k.1 x.a then none else some x

def Ray.clipAt (r : Ray) (k : ClipKey) : Ray :=
  let k : ClipKey := (bound32 k.1, k.2)
  { r with
    clip := match r.clip with
      | none => some k
      | some c => if keyAfter c k then some k else some c
    spans := r.spans.filterMap (Span.clipAt k) }

/-- Cut every piece at t. -/
def Ray.cutAt (r : Ray) (t : BitVec 32) : Ray := { r with spans := r.spans.flatMap (Span.cut (bound32 t)) }

/-- Replace the first entry that a test picks, if any does. -/
def updateFirst (p : Span → Bool) (f : Span → Span) : List Span → Option (List Span)
  | [] => none
  | x :: l => if p x then some (f x :: l) else (updateFirst p f l).map fun m => x :: m

/-- Insert a surface. -/
def Ray.insertSurface (r : Ray) (a : Answer) (lo hi : BitVec 32) : Ray :=
  let k : ClipKey := (a.t0, a.kind, a.prim)
  if lt32 a.t0 lo ∨ lt32 hi a.t0 ∨ r.clip.any fun c => keyAfter k c then r
  else
    let r := if (val16 a.tau).isInf then r.clipAt k else r
    match updateFirst (fun x => x.covers a.t0 a.t0) (fun x => x.absorb a.surface.tau a.surface.e) r.spans with
    | some l => { r with spans := l }.overflowed 1
    | none =>
      let r := r.cutAt a.t0
      { r with spans := r.spans ++ [a.surface] }

/-- A value put into a rising list, without repeats. -/
def insert32 (t : BitVec 32) : List (BitVec 32) → List (BitVec 32)
  | [] => [t]
  | x :: l => if lt32 t x then t :: x :: l else if lt32 x t then x :: insert32 t l else x :: l

/-- Insert one piece of an answer. -/
def Ray.insertPiece (r : Ray) (c : Share) (col : BitVec 32 × BitVec 32 × BitVec 32) (p q : BitVec 32) : Ray :=
  let len := ((val32 q).minus (val32 p)).getD (.nan false)
  let tau := step32 FVal.mul (val32 c.rho) len
  match updateFirst (fun x => x.covers p q) (fun x => x.absorb tau (map3 (shade32 tau) col)) r.spans with
  | some l => { r with spans := l }.overflowed 1
  | none =>
    match updateFirst (fun x => x.form == .interval && eq32 x.a p && eq32 x.b q) (fun x => x.add c) r.spans with
    | some l => { r with spans := l }
    | none => { r with spans := r.spans ++ [c.piece p q] }

/-- Insert an interval. -/
def Ray.insertInterval (r : Ray) (ans : Answer) (lo hi : BitVec 32) : Ray :=
  let a := bound32 (max32 ans.t0 lo)
  let b := bound32 (min32 ans.t1 hi)
  if !lt32 a b then r
  else
    let tau := val16 ans.tau
    let rho := step32 FVal.quot tau (((val32 ans.t1).minus (val32 ans.t0)).getD (.nan false))
    let col := map3 (fun e => if tau.isZero then 0#32 else colourOf tau e) ans.emission
    let c : Share := ⟨rho, map3 (fun k => mul32 rho k) col, ans⟩
    let r := (r.cutAt a).cutAt b
    let inner := (r.spans.flatMap fun x => [x.a, x.b]).filter fun t => lt32 a t && lt32 t b
    let pts := inner.foldl (fun l t => insert32 t l) [a, b]
    (pts.zip pts.tail).foldl (fun r e => r.insertPiece c col e.1 e.2) r

/-- Merge the last entries while there are more than sixteen. -/
def mergeLast : Nat → List Span → List Span × Nat
  | 0, l => (l, 0)
  | n + 1, l =>
    if l.length ≤ 16 then (l, 0)
    else
      match l.reverse with
      | y :: x :: rest =>
        let m := mergeLast n (rest.reverse ++ [x.merge y])
        (m.1, m.2 + 1)
      | _ => (l, 0)

/-- The words of a ray's descriptor. -/
def Ray.desc32 (r : Ray) (i : Nat) : BitVec 32 := r.desc.getD i 0#32

def Ray.tmin (r : Ray) : BitVec 32 := r.desc32 3
def Ray.tmax (r : Ray) : BitVec 32 := r.desc32 7

/-- `insert` (14 R279), with the merges of R281. -/
def Ray.insert (r : Ray) (a : Answer) : Ray :=
  let lo := max32 r.tmin r.consumed
  let hi := min32 r.tmax r.clipT
  let r := if eq32 a.t0 a.t1 then r.insertSurface a lo hi else r.insertInterval a lo hi
  let l := sortSpans r.spans
  let m := mergeLast l.length l
  { r with spans := m.1 }.overflowed m.2

/-! ## The front (14 R278, R282) -/

/-- Is every registered source done? -/
def Ray.allDone (r : Ray) : Bool := r.sources.all fun x => !x.registered || x.done

/-- The settled bound. -/
def Ray.bound (r : Ray) : BitVec 32 :=
  ((r.sources.filter fun x => x.registered && !x.done).map RaySource.settled).foldl
    (fun o x => some (match o with
      | none => x
      | some y => min32 y x)) (none : Option (BitVec 32)) |>.getD inf32

/-- Is an entry consumable under a bound? -/
def Span.consumable (x : Span) (bound : BitVec 32) : Bool :=
  if x.form = .surface then lt32 x.a bound || eq32 bound inf32 else le32 x.b bound

/-- The opacity threshold; +0.0 selects 0.996 (14 R287). -/
def Ray.threshold (r : Ray) : BitVec 32 := if r.desc32 8 = 0#32 then 0x3F7EF9DB#32 else r.desc32 8

/-- `consume`. -/
def Ray.consume (r : Ray) (x : Span) : Ray :=
  let u := x.use
  { r with
    colour := zip3 (fun c e => add32 c (mul32 r.front e)) r.colour u.2
    front := mul32 r.front (expn32 u.1)
    consumed := x.b
    spans := r.spans.tail }

/-- Consume from the front; true when the opacity threshold stops the ray. -/
def Ray.advance : Nat → Ray → Ray × Bool
  | 0, r => (r, false)
  | n + 1, r =>
    match r.spans with
    | [] => (r, false)
    | x :: _ =>
      if x.consumable r.bound then
        let r := r.consume x
        if le32 r.threshold (sub32 one32 r.front) then (r, true) else Ray.advance n r
      else (r, false)

end Sys2Proof.Machine
end

