-- ==== Sys2Proof/Machine/Ray.lean ====
section
/-!
DEFINITION. Ray.lean: the ray slots of a traversal unit (14 R275 to R278), the ray instructions (R284 to R289), and abort and
reset (15 R300).
-/

namespace Sys2Proof.Machine

/-! ## Slots -/

def Stage.ray (g : Stage) (n : Nat) : Ray := Assoc.get Ray.free g.rays n

def State.setRay (s : State) (st n : Nat) (r : Ray) : State :=
  s.setStage st { s.stage st with rays := Assoc.put Ray.free (s.stage st).rays n r }

/-- The handle of a slot, with source number 0 (14 R275). -/
def rayHandle (st slot : Nat) (gen : BitVec 14) : Word :=
  0#32 ++ gen ++ BitVec.ofNat 2 (st / 40) ++ BitVec.ofNat 3 (st % 40 / 8) ++ BitVec.ofNat 3 (st % 8) ++ BitVec.ofNat 10 slot

/-- Does a stage's traversal unit get new microcode (29 R415)? -/
def State.travUpdating (s : State) (st : Nat) : Bool := s.updating fun u => u == .traversal st

/-- The fields of a handle. -/
structure Handle where
  stage : Nat
  slot : Nat
  gen : BitVec 14
  source : Nat
  word : Word
deriving DecidableEq, Repr

/-- Checks 1 to 3 of R285: the handle of a register. -/
def handleOf (v : Word) (named : Bool) : Op Handle := do
  require (v.extractLsb' 35 29 == 0#29 && (named || v.extractLsb' 32 3 == 0#3)) Cause.rayOperand v
  let row := (v.extractLsb' 13 3).toNat
  let st := (v.extractLsb' 16 2).toNat * 40 + row * 8 + (v.extractLsb' 10 3).toNat
  let s ← get
  require (decide (row < 5) && !s.grade.noStage.contains st) Cause.mapAddress v
  require (s.sameStage s.cur.1 st) Cause.partitionBoundary v
  await (!s.travUpdating st)
  pure ⟨st, (v.extractLsb' 0 10).toNat, v.extractLsb' 18 14, (v.extractLsb' 32 3).toNat, v⟩

/-- Does a handle name no slot in use? -/
def State.stale (s : State) (h : Handle) : Bool :=
  let r := (s.stage h.stage).ray h.slot
  r.status == 0#4 || r.gen != h.gen

/-- Check 5: the slot of a handle. -/
def slotOf (h : Handle) : Op Ray := do
  let s ← get
  require (!s.stale h) Cause.rayHandle h.word
  pure ((s.stage h.stage).ray h.slot)

/-! ## Messages (14 R288) -/

/-- A message of the unit: no core is its sender. -/
def State.rayMessage (s : State) (st target : Nat) (cls : BitVec 8) (words : List (BitVec 32)) (drop : Bool) : State :=
  s.unitMessage (coreAt st 0 0) target ⟨cls, 0x3FFF#14, words, drop⟩

/-- The completion, for a class that is not 0. -/
def State.rayComplete (s : State) (st n : Nat) (r : Ray) (drop : Bool) : State :=
  let cls : BitVec 8 := (r.desc32 9).setWidth 8
  if cls = 0#8 then s
  else s.rayMessage st r.owner cls [(rayHandle st n r.gen).setWidth 32, 0#16 ++ r.overflow ++ 0#4 ++ r.status, r.front, r.consumed] drop

/-- The stop notices. -/
def State.rayNotices (s : State) (st n : Nat) (r : Ray) : State :=
  (r.sources.zipIdx.filter fun e =>
    e.1.registered && !e.1.done && e.1.noticeCls != 0#8 && !(e.2 == 0 && r.walk.isSome)).foldl (fun s e =>
      s.rayMessage st e.1.noticeCore.toNat e.1.noticeCls
        [(rayHandle st n r.gen).setWidth 32, BitVec.ofNat 32 e.2, r.consumed, 0#32] false) s

/-- A ray ends with a status: the list is discarded, and notices and the completion go out. The walk ends with it. -/
def State.rayStop (s : State) (st n : Nat) (r : Ray) (status : BitVec 4) : State :=
  let r := { r with status := status, spans := [] }
  ((s.rayNotices st n r).rayComplete st n r false).setRay st n { r with walk := none }

/-- What follows every operation on a slot (14 R278 to R282), and the end of a ray with nothing left (R277). -/
def State.settleRay (s : State) (st n : Nat) (r : Ray) : State :=
  if r.status ≠ 2#4 then s.setRay st n r
  else
    match r.advance (r.spans.length + 1) with
    | (r, true) => s.rayStop st n r 3#4
    | (r, false) =>
      if r.spans.isEmpty ∧ r.allDone then
        let r := { r with status := 5#4, walk := none }
        (s.rayComplete st n r false).setRay st n r
      else s.setRay st n r

/-! ## RAYNEW (14 R286, R287) -/

/-- An FP32 value that is neither NaN nor infinite. -/
def finite32 (b : BitVec 32) : Bool := !(val32 b).isNaN && !(val32 b).isInf

/-- The first offset of a descriptor whose field breaks its rule. -/
def descFail (w : List (BitVec 32)) : Option Nat :=
  let f (i : Nat) : BitVec 32 := w.getD i 0#32
  let checks : List (Nat × Bool) :=
    [(0x00, finite32 (f 0)), (0x04, finite32 (f 1)), (0x08, finite32 (f 2)),
     (0x0C, le32 0#32 (f 3) && ((val32 (f 7)).isNaN || le32 (f 3) (f 7))),
     (0x10, finite32 (f 4) && !((val32 (f 4)).isZero && (val32 (f 5)).isZero && (val32 (f 6)).isZero)),
     (0x14, finite32 (f 5)), (0x18, finite32 (f 6)), (0x1C, !(val32 (f 7)).isNaN),
     (0x20, f 8 == 0#32 || (lt32 0#32 (f 8) && le32 (f 8) one32)), (0x24, (f 9).extractLsb' 8 24 == 0#24),
     (0x28, (f 11).extractLsb' 25 7 == 0#7), (0x30, f 12 == 0#32), (0x34, f 13 == 0#32), (0x38, f 14 == 0#32), (0x3C, f 15 == 0#32)]
  (checks.find? fun e => !e.2).map Prod.fst

/-- The BVH root of a ray; 0 for none. -/
def rootOfDesc (w : List (BitVec 32)) : Nat := (w.getD 10 0#32).toNat + 2 ^ 32 * ((w.getD 11 0#32).toNat % 2 ^ 25)

/-- A slot after RAYNEW (14 R276). With a walker, source 0 is registered. -/
def Ray.opened (gen : BitVec 14) (w : List (BitVec 32)) (owner ctx : Nat) : Ray :=
  let tmin := w.getD 3 0#32
  let root := rootOfDesc w
  { status := 1#4, gen := gen, desc := w, owner := owner, ctx := ctx
    sources := (List.range 8).map fun i => ⟨i == 0 && root != 0, false, tmin, 0#14, 0#8⟩
    spans := [], clip := none, front := one32, colour := (0#32, 0#32, 0#32), consumed := tmin, overflow := 0#8
    walk := if root = 0 then none
      else some ⟨root, [⟨tmin, root, 0, 0, false⟩], none, false, none, none⟩ }

/-- The free slots of a stage. -/
def Stage.freeRays (g : Stage) : List Nat := (List.range 1024).filter fun i => (g.ray i).status == 0#4

/-- A value of the unit on its way to a register. -/
def rayReply (d : XName) (st : Nat) (v : Word) : Op Unit := do
  let dst ← lateDest d 8 false false
  let _ ← pushReq (some .m) (.stage st) [] (.reply dst (bytesOfNat 8 v.toNat) false)

def execRaynew (d : XName) (a : Src) : State → Result := plain (do
  destReady d
  let r ← readSrc a
  requireLocal r 0
  match ← accessCheck r needL 0 64 16 with
  | .map _ => pure ()
  | .local o => do
    awaitLocal .m o 64
    let s ← get
    await (!s.travUpdating (stageOf s.cur.1))
    let w := wordsOf (s.readBytes (ulmAddr s.cur.1 o) 64)
    match descFail w with
    | some off => trap Cause.rayDescriptor (BitVec.ofNat 64 off)
    | none => do
      let st := stageOf s.cur.1
      let free := (s.stage st).freeRays
      match free[Config.raySlot s.freeIx % free.length]? with
      | none => rayReply d st 0#64
      | some n => do
        let gen := ((s.stage st).ray n).gen
        set { s.setRay st n (Ray.opened gen w s.cur.1 (s.contextOfStage st)) with freeIx := s.freeIx + 1 }
        rayReply d st (rayHandle st n gen))

/-! ## The other instructions (14 R286) -/

/-- An operation on the slot a handle names, followed by what every operation is followed by. -/
def onRay (h : Handle) (f : Ray → Op Ray) : Op Unit := do
  let r ← slotOf h
  let r ← f r
  let s ← get
  set (s.settleRay h.stage h.slot r)

/-- A row with no second operand. -/
def rayOp (named : Bool) (a : Src) (f : Handle → Ray → Op Ray) : State → Result := plain (do
  let v ← readSrc a
  let h ← handleOf (Quad.low v.val) named
  unitRequest
  onRay h (f h))
where
  /-- An event of class m, taken by the unit at once. -/
  unitRequest : Op Unit := awaitFences .m

def execRaygo (a : Src) : State → Result := rayOp false a fun h r => do
  require (r.status == 1#4) Cause.rayState h.word
  pure { r with status := 2#4 }

def setSource (r : Ray) (i : Nat) (x : RaySource) : Ray := { r with sources := r.sources.set i x }

def noSource : RaySource := ⟨false, false, 0#32, 0#14, 0#8⟩

def Ray.source (r : Ray) (i : Nat) : RaySource := r.sources.getD i noSource

def execSpsrc (a b : Src) : State → Result := plain (do
  let v ← readSrc2 a b
  let h ← handleOf (Quad.low v.1.val) true
  let w := Quad.low v.2.val
  awaitFences .m
  onRay h fun r => do
    require (r.status == 1#4) Cause.rayState h.word
    require (!(r.source h.source).registered) Cause.raySource h.word
    require (w.extractLsb' 22 42 == 0#42) Cause.rayOperand h.word
    let core := (w.extractLsb' 0 14).toNat
    let s ← get
    require (isCore core && s.samePart s.cur.1 core) Cause.partitionBoundary (BitVec.ofNat 64 core)
    pure (setSource r h.source ⟨true, false, r.tmin, w.extractLsb' 0 14, w.extractLsb' 14 8⟩))

/-- The status and source checks of SPINS: none where the operation is discarded. -/
def sourceCheck (h : Handle) (r : Ray) : Op (Option RaySource) := do
  require (r.status != 1#4) Cause.rayState h.word
  if r.status = 3#4 ∨ r.status = 4#4 ∨ r.status = 6#4 then pure none
  else do
    let x := r.source h.source
    require (x.registered && !x.done) Cause.raySource h.word
    pure (some x)

/-- Read a 32-byte answer record at issue. -/
def readAnswer (r : XReg) : Op (List Byte) := do
  match ← accessCheck r needL 0 32 16 with
  | .local o => do
    awaitLocal .m o 32
    let s ← get
    pure (s.readBytes (ulmAddr s.cur.1 o) 32)
  | .map m => do
    awaitFences .m
    let s ← get
    await (s.sameLocation m 32).isEmpty
    pure (s.mapRead m 32).1

def execSpins (a b : Src) : State → Result := plain (do
  let v ← readSrc2 a b
  let h ← handleOf (Quad.low v.1.val) true
  let bs ← readAnswer v.2
  onRay h fun r => do
    match ← sourceCheck h r with
    | none => pure r
    | some x =>
      match decodeAnswer bs with
      | none => trap Cause.rayAnswer h.word
      | some ans => do
        require (le32 x.settled ans.t0) Cause.rayAnswer h.word
        pure (r.insert ans))

def execSpsettle (a b : Src) : State → Result := plain (do
  let v ← readSrc2 a b
  let h ← handleOf (Quad.low v.1.val) true
  let w := Quad.low v.2.val
  awaitFences .m
  onRay h fun r => do
    match ← sourceCheck h r with
    | none => pure r
    | some x => do
      let t : BitVec 32 := w.setWidth 32
      require (w.extractLsb' 32 32 == 0#32 && !(val32 t).isNaN) Cause.rayOperand h.word
      pure (setSource r h.source { x with settled := max32 x.settled t }))

def execSpdone (a : Src) : State → Result := rayOp true a fun h r => do
  match ← sourceCheck h r with
  | none => pure r
  | some x => pure (setSource r h.source { x with done := true })

def execRaystop (a : Src) : State → Result := plain (do
  let v ← readSrc a
  let h ← handleOf (Quad.low v.val) false
  awaitFences .m
  let r ← slotOf h
  let s ← get
  let s := s.settleRay h.stage h.slot r
  let r := (s.stage h.stage).ray h.slot
  set (if r.status = 2#4 then s.rayStop h.stage h.slot r 4#4 else s))

/-- The next generation (14 R275). -/
def nextGen (g : BitVec 14) : BitVec 14 := if g = 16383#14 then 1#14 else g + 1#14

/-- A slot freed. -/
def Ray.freed (r : Ray) : Ray := { Ray.free with gen := nextGen r.gen }

def execRayfree (a : Src) : State → Result := plain (do
  let v ← readSrc a
  let h ← handleOf (Quad.low v.val) false
  awaitFences .m
  let r ← slotOf h
  let s ← get
  require (r.owner == s.cur.1) Cause.rayOwner h.word
  require (r.status != 2#4) Cause.rayState h.word
  set (s.setRay h.stage h.slot r.freed))

/-! ## SPRD (14 R286, R287) -/

/-- A mask of the sources that a test picks. -/
def Ray.mask (r : Ray) (p : RaySource → Bool) : BitVec 8 := BitVec.ofNat 8 (bitsOf (r.sources.map p))

/-- The field a selector names; all ones where entry k is absent. -/
def Ray.field (r : Ray) (field k : Nat) : Word :=
  match field with
  | 0 => 0#16 ++ r.overflow ++ r.mask (fun x => x.registered && x.done) ++ r.mask RaySource.registered ++ 0#3 ++
      BitVec.ofNat 5 r.spans.length ++ 0#12 ++ r.status
  | 1 => r.consumed ++ r.front
  | 2 => r.colour.2.1 ++ r.colour.1
  | 3 => r.bound ++ r.colour.2.2
  | 4 => ((r.source k).settled).setWidth 64
  | _ =>
    match r.spans[k]? with
    | none => BitVec.allOnes 64
    | some x =>
      let u := x.use
      match field with
      | 5 => x.b ++ x.a
      | 6 => 0#20 ++ BitVec.ofBool (x.form == .merged) ++ x.kind ++ x.conf ++ u.1
      | _ => u.2.2.2 ++ narrow16 u.2.2.1 ++ narrow16 u.2.1

def execSprd (d : XName) (a b : Src) : State → Result := plain (do
  destReady d
  let v ← readSrc2 a b
  let h ← handleOf (Quad.low v.1.val) false
  let w := Quad.low v.2.val
  let field := (w.extractLsb' 0 4).toNat
  let k := (w.extractLsb' 4 4).toNat
  require (w.extractLsb' 8 56 == 0#56 && decide (field < 8) && !(decide (field < 4) && k != 0) && !(field == 4 && decide (7 < k)))
    Cause.rayOperand h.word
  awaitFences .m
  let s ← get
  rayReply d h.stage (if s.stale h then BitVec.allOnes 64 else ((s.stage h.stage).ray h.slot).field field k))

/-- The unit's value arrives. -/
def execRayUnitReply (id : Nat) (s : State) : Result :=
  .next (match s.req id with
    | some r =>
      match r.body with
      | .reply dst bs tag => if r.cls = some .m then s.deliver r dst bs tag else s
      | _ => s
    | none => s)

/-! ## Abort and reset (15 R300) -/

/-- Abort one slot: one that is open or running ends with status 6, and its completion carries a drop mark. -/
def State.abortRay (s : State) (st n : Nat) : State :=
  let r := (s.stage st).ray n
  if r.status = 1#4 ∨ r.status = 2#4 then
    let r := { r with status := 6#4, spans := [], walk := none }
    (s.rayComplete st n r true).setRay st n r
  else s

/-- The raster waves of a context are discarded, and its queues are idle (16 R309). -/
def RasterQueue.discard (q : RasterQueue) (ctx : Nat) : RasterQueue :=
  if q.opened ∧ q.node = ctx then RasterQueue.idle else q

def State.discardWaves (s : State) (die ctx : Nat) : State :=
  let d := s.die die
  s.setDie die { d with queues := d.queues.map (fun e => (e.1, e.2.discard ctx)) }

def State.travAbort (s : State) (st ctx : Nat) : State :=
  let mine := ((s.stage st).rays.filter fun e => e.2.ctx == ctx && e.2.status != 0#4).map Prod.fst
  (mine.foldl (fun s n => s.abortRay st n) s).discardWaves (dieOfStage st) ctx

def execTravAbort (stage ctx : Nat) (s : State) : Result := .next (s.travAbort stage ctx)

def State.travReset (s : State) (st ctx : Nat) : State :=
  let s := s.travAbort st ctx
  let mine := ((s.stage st).rays.filter fun e => e.2.ctx == ctx && e.2.status != 0#4).map Prod.fst
  mine.foldl (fun s n => s.setRay st n ((s.stage st).ray n).freed) s

def execTravReset (stage ctx : Nat) (s : State) : Result := .next (s.travReset stage ctx)

/-- `trav.sdf` written: a threshold that is NaN, negative or infinite is ignored; the step limit always lands. -/
def State.writeSdf (s : State) (st v : Nat) (value : Word) : State :=
  let g := s.stage st
  let c := g.travCtx v
  let th : BitVec 32 := value.extractLsb' 32 32
  let ok := finite32 th && !(val32 th).isNeg
  let c := { c with eps := if ok then th else c.eps, limit := value.extractLsb' 0 16 }
  s.setStage st { g with trav := Assoc.put TravCtx.reset g.trav v c }

/-- A write to `trav.sdf` of the stage's own context. -/
def execTravSdfWrite (stage value : Nat) (s : State) : Result :=
  .next (s.writeSdf stage ((s.partOfStage stage).getD 0) (BitVec.ofNat 64 value))

end Sys2Proof.Machine
end

