-- ==== Sys2Proof/Machine/Walker.lean ====
section
/-!
DEFINITION. Walker.lean: BVH8 nodes (15 R290 to R292), the t-ordered walk (R293, R294) and the native primitives
(R295 to R298).
-/

namespace Sys2Proof.Machine

abbrev Vec3 := BitVec 32 × BitVec 32 × BitVec 32

def Ray.origin (r : Ray) : Vec3 := (r.desc32 0, r.desc32 1, r.desc32 2)
def Ray.dir (r : Ray) : Vec3 := (r.desc32 4, r.desc32 5, r.desc32 6)

/-- A word of a record. -/
def word32 (bs : List Byte) (off : Nat) : BitVec 32 := BitVec.ofNat 32 (recNat bs off 4)
def half16 (bs : List Byte) (off : Nat) : BitVec 16 := BitVec.ofNat 16 (recNat bs off 2)
def vec3At (bs : List Byte) (off : Nat) : Vec3 := (word32 bs off, word32 bs (off + 4), word32 bs (off + 8))

/-! ## Boxes (15 R291, R293) -/

/-- A box: the low and high planes of x, y and z. -/
abbrev Box := (BitVec 32 × BitVec 32) × (BitVec 32 × BitVec 32) × (BitVec 32 × BitVec 32)

/-- An exact value rounded in a mode. -/
def roundAt (mode : Rnd) (x : FVal) : BitVec 32 := BitVec.ofNat 32 (Fmt.fp32.round false mode x).1

/-- A quotient by a nonzero finite number, rounded once. -/
def quotAt (mode : Rnd) (x d : FVal) : BitVec 32 := roundAt mode ((x.quot d).getD (.nan false))

/-- The slab of an axis; none for a miss. -/
def slab (lo hi o d : BitVec 32) : Option (BitVec 32 × BitVec 32) :=
  let near (x : BitVec 32) : FVal := ((val32 x).minus (val32 o)).getD (.nan false)
  if (val32 d).isZero then
    if le32 lo o ∧ le32 o hi then some (0xFF800000#32, inf32) else none
  else if (val32 d).isNeg then some (quotAt .rdn (near hi) (val32 d), quotAt .rup (near lo) (val32 d))
  else some (quotAt .rdn (near lo) (val32 d), quotAt .rup (near hi) (val32 d))

/-- tn and tf of a box, if the ray hits it. -/
def Ray.boxHit (r : Ray) (b : Box) : Option (BitVec 32 × BitVec 32) :=
  match slab b.1.1 b.1.2 r.origin.1 r.dir.1, slab b.2.1.1 b.2.1.2 r.origin.2.1 r.dir.2.1,
    slab b.2.2.1 b.2.2.2 r.origin.2.2 r.dir.2.2 with
  | some x, some y, some z =>
    let tn := max32 (max32 (max32 r.tmin x.1) y.1) z.1
    let tf := min32 (min32 (min32 (min32 r.tmax x.2) y.2) z.2) r.clipT
    if le32 tn tf then some (tn, tf) else none
  | _, _, _ => none

/-- A plane byte q on an axis. -/
def plane (mode : Rnd) (origin : BitVec 32) (e q : Nat) : BitVec 32 :=
  roundAt mode (exactSum (val32 origin) (.num false q ((e : Int) - 127)))

/-! ## Nodes (15 R290 to R292) -/

/-- The byte at an offset. -/
def byteAt (bs : List Byte) (off : Nat) : Nat := (bs.getD off 0#8).toNat

/-- The box of child i of a node. -/
def childBox (bs : List Byte) (i : Nat) : Box :=
  let axis (a : Nat) : BitVec 32 × BitVec 32 :=
    let o := word32 bs (4 * a)
    let e := byteAt bs (0x0C + a)
    (plane .rdn o e (byteAt bs (0x20 + 16 * a + i)), plane .rup o e (byteAt bs (0x28 + 16 * a + i)))
  (axis 0, axis 1, axis 2)

/-- Is lo above hi on an axis? -/
def badBox (b : Box) : Bool := lt32 b.1.2 b.1.1 || lt32 b.2.1.2 b.2.1.1 || lt32 b.2.2.2 b.2.2.1

/-- The valid children of a node. -/
def validChildren (bs : List Byte) : List Nat := (List.range 8).filter fun i => (byteAt bs 0x0F).testBit i

def childType (bs : List Byte) (i : Nat) : Nat := byteAt bs (0x18 + i) / 16
def childCount (bs : List Byte) (i : Nat) : Nat := byteAt bs (0x18 + i) % 16

/-- Is a node malformed? -/
def badNode (addr : Nat) (bs : List Byte) : Bool :=
  decide (addr % 128 ≠ 0) ||
    ((List.range 3).any fun a => byteAt bs (0x0C + a) == 0 || byteAt bs (0x0C + a) == 255 || !finite32 (word32 bs (4 * a))) ||
    decide (1 < recNat bs 0x70 4) || decide (recNat bs 0x74 12 ≠ 0) ||
    (validChildren bs).any fun i =>
      let t := childType bs i
      decide (4 < t) || ((t == 0 || t == 3 || t == 4) && childCount bs i != 0) || badBox (childBox bs i)

/-- A child as a pending entry, if the ray hits it. -/
def Ray.childHit (r : Ray) (root : Nat) (bs : List Byte) (i : Nat) : Option Pending :=
  let t := childType bs i
  let base := recNat bs (if t = 0 then 0x10 else 0x14) 4
  let addr := (root + (base + recNat bs (0x50 + 4 * i) 4) * 64) % 2 ^ 57
  (r.boxHit (childBox bs i)).map fun h =>
    ⟨h.1, addr, t, if t = 0 then 0 else childCount bs i + 1, (recNat bs 0x70 4).testBit 0⟩

/-! ## The walk's list (15 R294) -/

/-- Does a key come before another? -/
def keyBefore (x y : BitVec 32 × Nat) : Bool := lt32 x.1 y.1 || (!lt32 y.1 x.1 && decide (x.2 < y.2))

def Pending.key (e : Pending) : BitVec 32 × Nat := (e.tn, e.addr)

/-- The entry with the smallest key. -/
def nearest : List Pending → Option Pending
  | [] => none
  | e :: l => match nearest l with
    | none => some e
    | some f => if keyBefore f.key e.key then some f else some e

/-- The entry with the largest key. -/
def farthest : List Pending → Option Pending
  | [] => none
  | e :: l => match farthest l with
    | none => some e
    | some f => if keyBefore e.key f.key then some f else some e

/-- Add an entry; the 65th evicts the one with the largest key. -/
def Walk.add (w : Walk) (e : Pending) : Walk :=
  let l := w.pending ++ [e]
  if l.length ≤ 64 then { w with pending := l }
  else
    match farthest l with
    | some f => { w with pending := l.erase f, evicted := true }
    | none => w

/-- The walk after an entry that was not discarded: a restart if entries were evicted and none is left. -/
def Walk.ended (w : Walk) (tmin : BitVec 32) : Walk :=
  if w.pending.isEmpty ∧ w.evicted then
    { w with current := none, evicted := false, pending := [⟨tmin, w.root, 0, 0, false⟩] }
  else { w with current := none }

/-- The walk is over: source 0 is done, and the walker leaves the ray. -/
def State.endWalk (s : State) (st n : Nat) (r : Ray) : State :=
  let r := setSource r 0 { r.source 0 with done := true }
  s.settleRay st n { r with walk := none }

/-- The walk goes on, or is over with nothing pending. -/
def State.setWalk (s : State) (st n : Nat) (w : Walk) : State :=
  let r := (s.stage st).ray n
  if r.status = 2#4 ∧ r.walk.isSome then
    if w.current.isNone ∧ w.pending.isEmpty then s.endWalk st n r else s.setRay st n { r with walk := some w }
  else s

/-- The walker's next step: pop, settle, and discard, or fetch next. A walk whose last entry is discarded is done, also where
that settling stopped the ray (the table that closes ch. 15). -/
def State.walkStep (s : State) (st n : Nat) (r : Ray) (w : Walk) : State :=
  match nearest w.pending with
  | none => s.endWalk st n r
  | some e =>
    let x := r.source 0
    let r := setSource r 0 { x with settled := max32 x.settled e.tn }
    let beyond := lt32 r.clipT e.tn
    let w := { w with pending := w.pending.erase e, current := if beyond then none else some e }
    let s := s.settleRay st n { r with walk := some w }
    let r := (s.stage st).ray n
    if r.status ≠ 2#4 ∧ beyond ∧ w.pending.isEmpty then s.setRay st n (setSource r 0 { r.source 0 with done := true })
    else s.setWalk st n w

def execWalkerStep (stage slot : Nat) (s : State) : Result :=
  let r := (s.stage stage).ray slot
  .next (match r.walk with
    | some w => if r.status = 2#4 ∧ w.current.isNone ∧ w.suspended.isNone ∧ (s.stage stage).halted < 3 ∧
      !s.travUpdating stage then s.walkStep stage slot r w else s
    | none => s)

/-! ## Answers -/

/-- Insert an answer of the walker: t0 is raised to where source 0 has settled. -/
def State.walkAnswer (s : State) (st n : Nat) (a : Answer) : State :=
  let r := (s.stage st).ray n
  if r.status ≠ 2#4 then s
  else
    let low := (r.source 0).settled
    let t1 := if eq32 a.t0 a.t1 then max32 a.t0 low else a.t1
    let a := { a with t0 := max32 a.t0 low, t1 := t1 }
    if a.formed then s.settleRay st n (r.insert a) else s

/-- (1 - e^-τ) times a colour, in FP16. -/
def shade (tau : BitVec 32) (c : BitVec 16 × BitVec 16 × BitVec 16) : BitVec 16 × BitVec 16 × BitVec 16 :=
  map3 (fun k => narrow16 (mul32 (opacity32 tau) (widen32 k))) c

def colourAt (bs : List Byte) (off : Nat) : BitVec 16 × BitVec 16 × BitVec 16 :=
  (half16 bs off, half16 bs (off + 2), half16 bs (off + 4))

/-! ## Triangles (15 R295) -/

/-- A finite FP32 value as a multiple of 2^-149. -/
def fix32 (b : BitVec 32) : Int :=
  match val32 b with
  | .num neg m e => scaledTo neg m e (-149)
  | _ => 0

abbrev Int3 := Int × Int × Int

def fix3 (v : Vec3) : Int3 := map3 fix32 v
def sub3 (a b : Int3) : Int3 := zip3 (· - ·) a b
def dot3 (a b : Int3) : Int := a.1 * b.1 + a.2.1 * b.2.1 + a.2.2 * b.2.2
def cross3 (a b : Int3) : Int3 :=
  (a.2.1 * b.2.2 - a.2.2 * b.2.1, a.2.2 * b.1 - a.1 * b.2.2, a.1 * b.2.1 - a.2.1 * b.1)

/-- A quotient of integers, rounded once to FP32. -/
def quotInt (n d : Int) : BitVec 32 := bits32 (((FVal.ofInt n).quot (FVal.ofInt d)).getD (.nan false))

/-- Is an edge function on the inside, for a sign of the triangle? -/
def insideEdge (sign : Int) (e : Int) (ends : List (BitVec 32)) : Bool :=
  decide (0 < e * sign) || (e == 0 && Config.topLeft ends)

def list3 (v : Vec3) : List (BitVec 32) := [v.1, v.2.1, v.2.2]

/-- The parameter at which a ray meets a triangle, and whether from the back. -/
def Ray.meets (r : Ray) (v0 v1 v2 : Vec3) : Option (BitVec 32 × Bool) :=
  let all := list3 v0 ++ list3 v1 ++ list3 v2
  if !all.all finite32 then (Config.oddTriangle (all ++ list3 r.origin ++ list3 r.dir)).map fun t => (t, false)
  else
    let o := fix3 r.origin
    let d := fix3 r.dir
    let a := sub3 (fix3 v0) o
    let b := sub3 (fix3 v1) o
    let c := sub3 (fix3 v2) o
    let nrm := cross3 (sub3 b a) (sub3 c a)
    let det := dot3 d nrm
    let ends (p q : Vec3) : List (BitVec 32) := list3 p ++ list3 q ++ list3 r.dir
    if det = 0 then none
    else if insideEdge det (dot3 d (cross3 a b)) (ends v0 v1) ∧ insideEdge det (dot3 d (cross3 b c)) (ends v1 v2) ∧
        insideEdge det (dot3 d (cross3 c a)) (ends v2 v0) then
      some (quotInt (dot3 a nrm) det, decide (det < 0) == Config.backSign)
    else none

/-- Is a triangle record malformed? -/
def badTriangle (bs : List Byte) : Bool := decide (1 < recNat bs 0x2C 2) || decide (recNat bs 0x38 8 ≠ 0)

def State.answerTriangle (s : State) (st n : Nat) (cull : Bool) (bs : List Byte) : State :=
  match ((s.stage st).ray n).meets (vec3At bs 0) (vec3At bs 0x0C) (vec3At bs 0x18) with
  | none => s
  | some (t, back) =>
    if back ∧ cull ∧ recNat bs 0x2C 2 = 0 then s
    else s.walkAnswer st n ⟨t, t, half16 bs 0x24, colourAt bs 0x26, 255#8, 0#3, half16 bs 0x2E, BitVec.ofNat 64 (recNat bs 0x30 8)⟩

/-! ## Splats (15 R296): each operator and each vector operation written there is one FP32 step (log 22) -/

def val3 (v : Vec3) : FVal × FVal × FVal := map3 val32 v

/-- An exact product; one without a value is a NaN. -/
def exactMul (x y : FVal) : FVal := (x.mul y).getD (.nan false)

def exactDot (a b : FVal × FVal × FVal) : FVal :=
  exactSum (exactSum (exactMul a.1 b.1) (exactMul a.2.1 b.2.1)) (exactMul a.2.2 b.2.2)

/-- An exact value rounded; a NaN is the free result of the operation. -/
def stepOf (x : FVal) : BitVec 32 := if x.isNaN then Config.rayInvalid x x else bits32 x

def dot32 (a b : Vec3) : BitVec 32 := stepOf (exactDot (val3 a) (val3 b))
def sqrt32 (a : BitVec 32) : BitVec 32 := stepOf ((val32 a).sqrt.getD (.nan false))

/-- The exact length of a vector, rounded. -/
def norm32 (v : Vec3) : BitVec 32 := stepOf ((exactDot (val3 v) (val3 v)).sqrt.getD (.nan false))

/-- The inverse of the rotation by a unit quaternion, on a vector. -/
def unrotate (q : BitVec 32 × Vec3) (v : Vec3) : Vec3 :=
  let w := val32 q.1
  let x := val32 q.2.1
  let y := val32 q.2.2.1
  let z := val32 q.2.2.2
  let two (a : FVal) : FVal := a.scale 1
  let m (a b : FVal) : FVal := exactMul a b
  let one : FVal := .num false 1 0
  let diag (a b : FVal) : FVal := exactSum one (two (exactSum (m a a) (m b b))).neg
  let plus (a b c d : FVal) : FVal := two (exactSum (m a b) (m c d))
  let minus (a b c d : FVal) : FVal := two (exactSum (m a b) (m c d).neg)
  let u := val3 v
  (stepOf (exactDot (diag y z, plus x y w z, minus x z w y) u), stepOf (exactDot (minus x y w z, diag x z, plus y z w x) u),
    stepOf (exactDot (plus x z w y, minus y z w x, diag x y) u))

/-- Is a splat record malformed? -/
def badSplat (bs : List Byte) : Bool :=
  !((list3 (vec3At bs 0x0C)).all fun x => lt32 0#32 x) || decide (recNat bs 0x2A 6 ≠ 0) || decide (recNat bs 0x38 8 ≠ 0)

/-- `splat`: the answer of a splat, if any. -/
def splatAnswer (r : Ray) (bs : List Byte) : Option Answer :=
  let scale := vec3At bs 0x0C
  let raw (i : Nat) : BitVec 32 := widen32 (half16 bs (0x18 + 2 * i))
  let sq (i : Nat) : FVal := exactMul (val32 (raw i)) (val32 (raw i))
  let norm := stepOf ((exactSum (exactSum (sq 0) (sq 1)) (exactSum (sq 2) (sq 3))).sqrt.getD (.nan false))
  let unit (i : Nat) : BitVec 32 := div32 (raw i) norm
  let q := (unit 0, unit 1, unit 2, unit 3)
  let p := zip3 div32 (unrotate q (zip3 sub32 r.origin (vec3At bs 0))) scale
  let v := zip3 div32 (unrotate q r.dir) scale
  let vv := dot32 v v
  let near := div32 (dot32 p v ^^^ 0x80000000#32) vv
  let c := zip3 (fun a b => add32 a (mul32 near b)) p v
  let m2 := dot32 c c
  if le32 0x41100000#32 m2 then none
  else
    let h := sqrt32 (div32 (sub32 0x41100000#32 m2) vv)
    let o := widen32 (half16 bs 0x20)
    let tau := mul32 (mul32 o (sqrt32 (div32 0x40C90FDB#32 vv))) (expn32 (div32 m2 0x40000000#32))
    if (val16 (narrow16 tau)).isZero then none
    else some ⟨sub32 near h, add32 near h, narrow16 tau, shade tau (colourAt bs 0x22), 255#8, 1#3, half16 bs 0x28,
      BitVec.ofNat 64 (recNat bs 0x30 8)⟩

def State.answerSplat (s : State) (st n : Nat) (bs : List Byte) : State :=
  match splatAnswer ((s.stage st).ray n) bs with
  | none => s
  | some a => s.walkAnswer st n a

/-! ## Density bricks (15 R297) -/

/-- An exact parameter n / d with d > 0. -/
abbrev Param := Int × Int

def paramOf (n d : Int) : Param := if d < 0 then (-n, -d) else (n, d)

def Param.lt (x y : Param) : Bool := decide (x.1 * y.2 < y.1 * x.2)

def insertParam (x : Param) : List Param → List Param
  | [] => [x]
  | y :: l => if Param.lt x y then x :: y :: l else if Param.lt y x then y :: insertParam x l else y :: l

/-- The parameters at which a ray meets the planes of an axis of a brick, none where it runs along the axis' planes. -/
def axisParams (corner w o d : Int) : List Param :=
  if d = 0 then [] else (List.range 9).map fun (k : Nat) => paramOf (corner + k * w - o) d

/-- The voxel of an axis at a parameter. -/
def voxelAt (corner w o d : Int) (t : Param) : Nat :=
  Nat.min 7 (((o - corner) * t.2 + d * t.1) / (w * t.2)).toNat

/-- Does the ray lie between the outer planes of an axis it runs along? -/
def alongInside (corner w o d : Int) : Bool := d != 0 || (decide (corner ≤ o) && decide (o ≤ corner + 8 * w))

/-- The entry and the exit of a brick. -/
def brickSpan (l : List (List Param)) : Option (Param × Param) :=
  let ends := l.filterMap fun a => match a.head?, a.getLast? with
    | some x, some y => some (if Param.lt y x then (y, x) else (x, y))
    | _, _ => none
  match ends with
  | [] => none
  | e :: rest =>
    let r := rest.foldl (fun a b => (if Param.lt a.1 b.1 then b.1 else a.1, if Param.lt b.2 a.2 then b.2 else a.2)) e
    if Param.lt r.1 r.2 then some r else none

/-- The runs of equal density along consecutive pieces. -/
def densityRuns : List (Param × Param × BitVec 16) → List (Param × Param × BitVec 16)
  | [] => []
  | e :: l => match densityRuns l with
    | [] => [e]
    | f :: rest => if f.2.2 = e.2.2 then (e.1, f.2.1, e.2.2) :: rest else e :: f :: rest

/-- The pieces of a ray through a brick, each with its voxel's density. -/
def brickPieces (r : Ray) (corner : Vec3) (w : BitVec 32) (data : List Byte) : List (Param × Param × BitVec 16) :=
  let c := fix3 corner
  let o := fix3 r.origin
  let d := fix3 r.dir
  let w := fix32 w
  let lists := [axisParams c.1 w o.1 d.1, axisParams c.2.1 w o.2.1 d.2.1, axisParams c.2.2 w o.2.2 d.2.2]
  if alongInside c.1 w o.1 d.1 ∧ alongInside c.2.1 w o.2.1 d.2.1 ∧ alongInside c.2.2 w o.2.2 d.2.2 then
    match brickSpan (lists.filter fun l => !l.isEmpty) with
    | none => []
    | some (a, b) =>
      let cuts := (lists.flatMap id).filter fun t => Param.lt a t && Param.lt t b
      let pts := cuts.foldl (fun l t => insertParam t l) [a, b]
      (pts.zip pts.tail).map fun e =>
        let mid : Param := (e.1.1 * e.2.2 + e.2.1 * e.1.2, 2 * e.1.2 * e.2.2)
        let i := voxelAt c.1 w o.1 d.1 mid + 8 * voxelAt c.2.1 w o.2.1 d.2.1 mid + 64 * voxelAt c.2.2 w o.2.2 d.2.2 mid
        (e.1, e.2, half16 data (2 * i))
  else []

/-- Is a density brick record malformed, before its data? -/
def badDensity (bs : List Byte) : Bool :=
  !lt32 0#32 (word32 bs 0x0C) || !finite32 (word32 bs 0x0C) || !(list3 (vec3At bs 0)).all finite32 ||
    decide (recNat bs 0x10 8 % 64 ≠ 0) || decide (2 ^ 57 ≤ recNat bs 0x10 8) || decide (recNat bs 0x28 24 ≠ 0)

/-- Is a density negative or a NaN? -/
def badDensities (data : List Byte) : Bool :=
  (List.range 512).any fun i => (val16 (half16 data (2 * i))).isNaN || (val16 (half16 data (2 * i))).isNeg

/-- The answers of a density brick. -/
def densityAnswers (r : Ray) (bs data : List Byte) : List Answer :=
  ((densityRuns (brickPieces r (vec3At bs 0) (word32 bs 0x0C) data)).filter fun e => !(val16 e.2.2).isZero).map fun e =>
    let t0 := quotInt e.1.1 e.1.2
    let t1 := quotInt e.2.1.1 e.2.1.2
    let tau := mul32 (widen32 e.2.2) (sub32 t1 t0)
    ⟨t0, t1, narrow16 tau, shade tau (colourAt bs 0x18), 255#8, 2#3, half16 bs 0x1E, BitVec.ofNat 64 (recNat bs 0x20 8)⟩

/-! ## SDF bricks (15 R298) -/

/-- Is an SDF brick record malformed? -/
def badSdf (bs : List Byte) : Bool :=
  !lt32 0#32 (word32 bs 0x0C) || decide (2 ^ 57 ≤ recNat bs 0x10 8) || decide (recNat bs 0x2E 18 ≠ 0)

/-- An integer as FP32. -/
def int32 (v : Int) : BitVec 32 := bits32 (FVal.ofInt v)

/-- The cell of a grid coordinate and the fraction in it. -/
def cellOf (g : BitVec 32) : Nat × BitVec 32 :=
  let i : Int := (FVal.toInt 32 true .rdn (val32 g)).1
  let c := Nat.min 6 i.toNat
  (c, sub32 g (int32 c))

/-- a + f (b - a). -/
def lerp32 (a b f : BitVec 32) : BitVec 32 := add32 a (mul32 f (sub32 b a))

/-- The distance at a point: trilinear, x first, then y, then z. -/
def sdfAt (bs data : List Byte) (p : Vec3) : BitVec 32 :=
  let h := word32 bs 0x0C
  let k := word32 bs 0x28
  let g := zip3 (fun x c => div32 (sub32 x c) h) p (vec3At bs 0)
  let x := cellOf g.1
  let y := cellOf g.2.1
  let z := cellOf g.2.2
  let sample (i j l : Nat) : BitVec 32 := mul32 (int32 ((data.getD (i + 8 * j + 64 * l) 0#8).toInt)) k
  let row (j l : Nat) : BitVec 32 := lerp32 (sample x.1 j l) (sample (x.1 + 1) j l) x.2
  let sheet (l : Nat) : BitVec 32 := lerp32 (row y.1 l) (row (y.1 + 1) l) y.2
  lerp32 (sheet z.1) (sheet (z.1 + 1)) z.2

/-- The outcome of a trace: an answer's parameter, no answer, or no answer and a miss. -/
inductive Trace where
  | answer (t : BitVec 32)
  | nothing
  | missed
deriving DecidableEq, Repr

/-- `sdf`, after n samples; the fuel is what the step limit leaves. -/
def sdfTrace (r : Ray) (bs data : List Byte) (eps tf len : BitVec 32) : Nat → Bool → BitVec 32 → Trace
  | 0, _, _ => .missed
  | fuel + 1, first, t =>
    let v := sdfAt bs data (zip3 (fun o d => add32 o (mul32 t d)) r.origin r.dir)
    let neg := lt32 v 0#32
    if first ∧ neg then .answer t
    else if le32 (v &&& 0x7FFFFFFF#32) eps then .answer t
    else
      let t := add32 t (div32 (max32 v eps) len)
      if lt32 tf t then .nothing else sdfTrace r bs data eps tf len fuel false t

/-- The box of an SDF brick. -/
def sdfBox (bs : List Byte) : Box :=
  let size := mul32 0x40E00000#32 (word32 bs 0x0C)
  let c := vec3At bs 0
  ((c.1, add32 c.1 size), (c.2.1, add32 c.2.1 size), (c.2.2, add32 c.2.2 size))

def State.answerSdf (s : State) (st n : Nat) (bs data : List Byte) : State :=
  let r := (s.stage st).ray n
  match r.boxHit (sdfBox bs) with
  | none => s
  | some (tn, tf) =>
    let c := (s.stage st).travCtx r.ctx
    match sdfTrace r bs data c.eps tf (norm32 r.dir) c.limit.toNat true tn with
    | .nothing => s
    | .missed =>
      let g := s.stage st
      s.setStage st { g with trav := Assoc.put TravCtx.reset g.trav r.ctx { c with misses := c.misses + 1#32 } }
    | .answer t =>
      let tau := half16 bs 0x2C
      s.walkAnswer st n ⟨t, t, tau, shade (widen32 tau) (colourAt bs 0x18), 255#8, 3#3, half16 bs 0x1E,
        BitVec.ofNat 64 (recNat bs 0x20 8)⟩

/-! ## Fetches (15 R292, R294) -/

/-- A malformed record, or an unresolvable fault on one: it is posted, and the walk is over. -/
def State.badRecord (s : State) (st n va : Nat) : State :=
  let r := (s.stage st).ray n
  let s := s.postError r.ctx ((TlbId.trav st).record Cause.sceneRecord (rayHandle st n r.gen) (BitVec.ofNat 64 va))
  if r.status = 2#4 ∧ r.walk.isSome then s.endWalk st n r else s

/-- The bytes of a fetch, or the state in which it waits, or a fault that no wake resolves and where. -/
inductive Fetched where
  | bytes (bs : List Byte) (s : State)
  | waits (s : State)
  | fails (va : Nat) (s : State)
deriving Repr

/-- The walker fetches bytes for a ray. A fault that a wake may resolve suspends this walk alone. -/
def State.walkFetch (s : State) (st n va len : Nat) : Fetched :=
  let r := (s.stage st).ray n
  match s.pullBytes (.trav st) r.ctx (extentAt va len) len len [] with
  | (bs, .done, s) => .bytes bs s
  | (_, .miss a, s) => .waits (s.startMiss (.trav st) r.ctx a 4#3)
  | (_, .busy, s) => .waits s
  | (_, .fault a c, s) =>
    if c = Cause.pageFault then
      match r.walk with
      | some w =>
        .waits ((s.setRay st n { r with walk := some { w with suspended := some (a / 65536) } }).enterFault (.trav st) r.ctx a
          4#3 (.walk st n))
      | none => .waits s
    else .fails a s

/-- The record of a leaf that a virtual address lies in (15 R292). -/
def Pending.recordAt (e : Pending) (va : Nat) : Nat :=
  let i := (va + 2 ^ 57 - e.addr) % 2 ^ 57 / 64
  if e.kind ≠ 0 ∧ i < e.count then (e.addr + 64 * i) % 2 ^ 57 else e.addr

/-- The ray's walk after the entry in progress. -/
def State.walkOn (s : State) (st n : Nat) (f : Walk → Walk) : State :=
  let r := (s.stage st).ray n
  match r.walk with
  | some w => s.setWalk st n ((f w).ended r.tmin)
  | none => s

/-- A node's bytes are here: its hit children are added. -/
def State.expand (s : State) (st n : Nat) (e : Pending) (bs : List Byte) : State :=
  if badNode e.addr bs then s.badRecord st n e.addr
  else
    let r := (s.stage st).ray n
    s.walkOn st n fun w => ((validChildren bs).filterMap (r.childHit w.root bs)).foldl Walk.add w

/-- The last leaf answered. -/
def Walk.answered (w : Walk) (k : BitVec 32 × Nat) : Walk :=
  { w with last := match w.last with
      | none => some k
      | some l => some (if keyBefore l k then k else l) }

/-- Triangles or splats of a leaf in record order; the first malformed one ends the walk. -/
def State.leafRecords (s : State) (st n : Nat) (e : Pending) : Nat → List Byte → Bool × State
  | 0, _ => (true, s)
  | k + 1, bs =>
    let rec1 := bs.take 64
    let va := (e.addr + 64 * (e.count - (k + 1))) % 2 ^ 57
    if e.kind = 1 then
      if badTriangle rec1 then (false, s.badRecord st n va)
      else State.leafRecords (s.answerTriangle st n e.cull rec1) st n e k (bs.drop 64)
    else
      if badSplat rec1 then (false, s.badRecord st n va)
      else State.leafRecords (s.answerSplat st n rec1) st n e k (bs.drop 64)

/-- A brick's data are fetched after its record. -/
def State.brick (s : State) (st n : Nat) (e : Pending) (bs : List Byte) : State :=
  let sdf := e.kind == 4
  let va := recNat bs 0x10 8
  if (if sdf then badSdf bs else badDensity bs) then s.badRecord st n e.addr
  else
    match s.walkFetch st n va (if sdf then 512 else 1024) with
    | .waits s => s
    | .fails _ s => s.badRecord st n e.addr
    | .bytes data s =>
      if !sdf ∧ badDensities data then s.badRecord st n e.addr
      else
        let s := if sdf then s.answerSdf st n bs data
          else (densityAnswers ((s.stage st).ray n) bs data).foldl (fun s a => s.walkAnswer st n a) s
        s.walkOn st n fun w => w.answered e.key

/-- The fetch of the entry in progress returns, or faults. -/
def State.walkReturn (s : State) (st n : Nat) (w : Walk) (e : Pending) : State :=
  if e.kind ≠ 0 ∧ w.last.any (fun l => !keyBefore l e.key) then s.walkOn st n fun w => w
  else
    match s.walkFetch st n e.addr (if e.kind = 0 then 128 else 64 * e.count) with
    | .waits s => s
    | .fails a s => s.badRecord st n (e.recordAt a)
    | .bytes bs s =>
      if e.kind = 0 then s.expand st n e bs
      else if e.kind ≤ 2 then
        match s.leafRecords st n e e.count bs with
        | (true, s) => s.walkOn st n fun w => w.answered e.key
        | (false, s) => s
      else s.brick st n e bs

def execWalkerFetch (stage slot : Nat) (s : State) : Result :=
  let r := (s.stage stage).ray slot
  .next (match r.walk with
    | some w =>
      match w.current with
      | some e => if r.status = 2#4 ∧ w.suspended.isNone then s.walkReturn stage slot w e else s
      | none => s
    | none => s)

end Sys2Proof.Machine
end

