-- ==== Sys2Proof/Machine/Gfx.lean ====
section
/-!
DEFINITION. Gfx.lean: VBMIN (16 R303), raster units (R304) and work graphs (R305 to R308).
-/

namespace Sys2Proof.Machine

def execVbmin (d : XName) (a b : Src) : State → Result := atomicOp .vbmin 16 d a b 0#6

/-! ## Node descriptors (16 R305) -/

/-- The fields of a node descriptor. -/
structure Node where
  raster : Bool
  ordered : Bool
  cls : BitVec 8
  target : BitVec 20
  done : BitVec 32
deriving DecidableEq, Repr

/-- A raster node's die, unit and queue. -/
def Node.die (n : Node) : Nat := (n.target.extractLsb' 0 2).toNat
def Node.unit (n : Node) : Nat := (n.target.extractLsb' 2 2).toNat
def Node.queue (n : Node) : Nat := (n.target.extractLsb' 4 6).toNat

/-- A raster node's completion core, counter and expected producers. -/
def Node.doneCore (n : Node) : Nat := (n.done.extractLsb' 0 14).toNat
def Node.doneCounter (n : Node) : Nat := (n.done.extractLsb' 14 6).toNat
def Node.producers (n : Node) : Nat := (n.done.extractLsb' 20 12).toNat

/-- A handler node's target core and producer counter. -/
def Node.core (n : Node) : Nat := (n.target.extractLsb' 0 14).toNat
def Node.counter (n : Node) : Nat := (n.target.extractLsb' 14 6).toNat

/-- A well-formed descriptor. -/
def decodeNode (w : List (BitVec 32)) : Option Node :=
  let w0 := w.getD 0 0#32
  let w1 := w.getD 1 0#32
  let n : Node := ⟨w0.getLsbD 0, w0.getLsbD 2, w0.extractLsb' 8 8, w1.setWidth 20, w.getD 2 0#32⟩
  let common := w0.getLsbD 1 == false && w0.extractLsb' 16 16 == 0#16 && w0.extractLsb' 3 5 == 0#5 &&
    w1.extractLsb' 20 12 == 0#12 && w.getD 3 0#32 == 0#32
  let own := if n.raster then n.cls == 0#8 && w1.extractLsb' 10 10 == 0#10 && decide (0 < n.producers)
    else !n.ordered && n.cls != 0#8 && n.done == 0#32
  if common && own then some n else none

/-- A local buffer of 16-byte units read at issue. -/
def readBuffer (r : XReg) (n : Nat) : Op (List (BitVec 32)) := do
  requireLocal r 0
  match ← accessCheck r needL 0 n 16 with
  | .map _ => pure []
  | .local o => do
    awaitLocal .m o n
    let s ← get
    pure (wordsOf (s.readBytes (ulmAddr s.cur.1 o) n))

/-- "work graph" (24 R348). -/
def workGraph {α : Type} : Op α := trap Cause.workGraph 0#64

/-- The descriptor that a register names. -/
def nodeOf (w : List (BitVec 32)) : Op Node :=
  match decodeNode w with
  | some n => pure n
  | none => workGraph

/-! ## Raster queues (16 R306, R307) -/

def Die.queue (d : Die) (unit queue : Nat) : RasterQueue := Assoc.get RasterQueue.idle d.queues (unit * 64 + queue)

def State.setRaster (s : State) (die unit queue : Nat) (q : RasterQueue) : State :=
  let d := s.die die
  s.setDie die { d with queues := Assoc.put RasterQueue.idle d.queues (unit * 64 + queue) q }

/-- The queue of a raster node, open for this descriptor. -/
def openQueue (n : Node) (w : List (BitVec 32)) : Op RasterQueue := do
  let s ← get
  require (!s.grade.noRaster.contains (n.die * 4 + n.unit)) Cause.workGraph 0#64
  let _ ← targetCore (BitVec.ofNat 64 n.doneCore)
  let q := (s.die n.die).queue n.unit n.queue
  if !q.opened then
    pure { RasterQueue.idle with desc := w, opened := true, left := n.producers, node := s.contextOf s.cur.1 }
  else if q.desc ≠ w ∨ q.left = 0 then workGraph
  else pure q

def execWgemit (a b : Src) : State → Result := plain (do
  notInHandler
  let r ← readSrc2 a b
  let w ← readBuffer r.1 16
  let n := (Quad.length r.2.val).toNat - (Quad.offset r.2.val).toNat
  let words ← readBuffer r.2 n
  let node ← nodeOf w
  if n < 16 ∨ 256 < n ∨ n % 16 ≠ 0 ∨ (node.raster ∧ n ≠ 64) then workGraph
  else if node.raster then do
    let q ← openQueue node w
    await (decide (q.records.length < 256))
    let s ← get
    set (s.setRaster node.die node.unit node.queue { q with records := q.records ++ [(q.seq, s.cur.1, words)], seq := q.seq + 1 })
  else do
    let target ← targetCore (BitVec.ofNat 64 node.core)
    sendMessage target ⟨node.cls, BitVec.ofNat 14 (← get).cur.1, words, false⟩)

/-- A producer's end. The decrement at a handler node follows the producer's messages to that core (R308). -/
def execWgfin (a : Src) : State → Result := plain (do
  notInHandler
  let r ← readSrc a
  let w ← readBuffer r 16
  let node ← nodeOf w
  if node.raster then do
    let q ← openQueue node w
    let s ← get
    set (s.setRaster node.die node.unit node.queue { q with left := q.left - 1 })
  else do
    let target ← targetCore (BitVec.ofNat 64 node.core)
    let s ← get
    let before := (s.outbound s.cur.1).filter fun r =>
      match r.body with
      | .message t _ _ => t == target
      | _ => false
    let _ ← pushReq (some .m) (.core target) (before.map Req.id) (.cadd target node.counter (BitVec.allOnes 32))
    pure ())

/-! ## Batch records (16 R304) -/

/-- The 64-bit field at a word of a record. -/
def long64 (w : List (BitVec 32)) (i : Nat) : Nat := (w.getD i 0#32).toNat + 2 ^ 32 * (w.getD (i + 1) 0#32).toNat

/-- The fields of a batch record. -/
structure Batch where
  vertices : Nat
  indices : Nat
  nv : Nat
  nt : Nat
  flags : BitVec 32
  base : Nat
  target : Nat
  width : Nat
  height : Nat
deriving DecidableEq, Repr

/-- A batch record whose own fields are well formed. -/
def decodeBatch (w : List (BitVec 32)) : Option Batch :=
  let counts := (w.getD 4 0#32).toNat
  let size := (w.getD 10 0#32).toNat
  let b : Batch := ⟨long64 w 0, long64 w 2, counts % 256 + 1, counts / 256 % 256 + 1, w.getD 5 0#32, long64 w 6, long64 w 8,
    size % 65536, size / 65536⟩
  if b.vertices < 2 ^ 57 ∧ b.vertices % 16 = 0 ∧ b.indices < 2 ^ 57 ∧ b.indices % 2 = 0 ∧ b.target < 2 ^ 57 ∧ b.target % 16 = 0 ∧
      counts < 65536 ∧ 1 ≤ b.width ∧ b.width ≤ 16384 ∧ 1 ≤ b.height ∧ b.height ≤ 16384 ∧
      (w.drop 11).all (fun x => x == 0#32) then some b else none

/-- A vertex on the screen: X, Y, and depth; none where it drops its triangle. -/
def screenVertex (b : Batch) (bs : List Byte) : Option Vec3 :=
  let w := word32 bs 12
  let v := [word32 bs 0, word32 bs 4, word32 bs 8, w]
  let at' (x : BitVec 32) (size : Nat) : BitVec 32 :=
    div32 (mul32 (add32 (div32 x w) one32) (int32 size)) 0x40000000#32
  if !v.all finite32 ∨ !lt32 0#32 w then none
  else
    let r := (at' (word32 bs 0) b.width, at' (word32 bs 4) b.height, div32 (word32 bs 8) w)
    if (list3 r).all finite32 then some r else none

/-- The edge function of a → b at a point, and whether the edge is a top or left one, for the sign of the area. -/
def edgeAt (sign : Int) (a b : Int × Int) (x y : Int) : Int :=
  ((b.1 - a.1) * (y - a.2) - (b.2 - a.2) * (x - a.1)) * sign

def topOrLeft (sign : Int) (a b : Int × Int) : Bool :=
  let dx := (b.1 - a.1) * sign
  let dy := (b.2 - a.2) * sign
  decide (dy < 0) || (dy == 0 && (if Config.topLow then decide (0 < dx) else decide (dx < 0)))

/-- The depth of a triangle at a sample it covers. -/
def coverage (v0 v1 v2 : Vec3) (px py : Nat) : Option (BitVec 32) :=
  let p (v : Vec3) : Int × Int := (fix32 v.1, fix32 v.2.1)
  let a := p v0
  let b := p v1
  let c := p v2
  let area := (b.1 - a.1) * (c.2 - a.2) - (b.2 - a.2) * (c.1 - a.1)
  let sign : Int := if area < 0 then -1 else 1
  let half : Int := (2 ^ 148 : Nat)
  let x : Int := (2 * px + 1 : Nat) * half
  let y : Int := (2 * py + 1 : Nat) * half
  let e0 := edgeAt sign b c x y
  let e1 := edgeAt sign c a x y
  let e2 := edgeAt sign a b x y
  let inside (e : Int) (p q : Int × Int) : Bool := decide (0 < e) || (e == 0 && topOrLeft sign p q)
  if area ≠ 0 ∧ inside e0 b c ∧ inside e1 c a ∧ inside e2 a b then
    some (quotInt (e0 * fix32 v0.2.2 + e1 * fix32 v1.2.2 + e2 * fix32 v2.2.2) (area * sign * (2 ^ 149 : Nat)))
  else none

/-- The pixels from a smallest to a largest coordinate, within a size. -/
def pixelRange (size : Nat) (l : List (BitVec 32)) : List Nat :=
  let v := l.map fun b => (fix32 b / (2 ^ 149 : Nat)).toNat
  let lo := v.foldl Nat.min size
  let hi := Nat.min size (v.foldl Nat.max 0 + 1)
  (List.range (hi - lo)).map (lo + ·)

/-- The samples of a triangle: pixel and depth. -/
def trianglePixels (b : Batch) (v0 v1 v2 : Vec3) : List (Nat × Nat × BitVec 32) :=
  (pixelRange b.height [v0.2.1, v1.2.1, v2.2.1]).flatMap fun py =>
    (pixelRange b.width [v0.1, v1.1, v2.1]).filterMap fun px => (coverage v0 v1 v2 px py).map fun z => (px, py, z)

/-- The candidates of a record, in order: address and sample; none where an index reaches the vertex count. -/
def batchSamples (b : Batch) (vs ix : List Byte) : Option (List (Nat × Quad)) :=
  let idx := (List.range (3 * b.nt)).map fun i => recNat ix (2 * i) 2
  if idx.any fun i => decide (b.nv ≤ i) then none
  else
    let vert (i : Nat) : Option Vec3 := screenVertex b ((vs.drop (16 * idx.getD i 0)).take 16)
    some ((List.range b.nt).flatMap fun t =>
      match vert (3 * t), vert (3 * t + 1), vert (3 * t + 2) with
      | some v0, some v1, some v2 =>
        (trianglePixels b v0 v1 v2).map fun p =>
          ((b.target + (p.2.1 * b.width + p.1) * 16) % 2 ^ 57, BitVec.ofNat 64 (b.base + t) ++ b.flags ++ p.2.2)
      | _, _, _ => [])

/-- A miss of a raster unit, which serves one at a time. -/
def State.rasterMiss (s : State) (t : TlbId) (ctx va : Nat) (need : Perms) : State :=
  if s.reqs.any fun r => match r.body with
    | .miss t' _ _ _ _ => t' == t
    | _ => false
  then s else s.startMiss t ctx va need

/-- What a sample's house core stores in place of the old bytes, if anything: one access (27 R390, R392). -/
def sampleWrite (c : Quad) (old : List Byte) : Option (List Byte) :=
  if vbWins c (BitVec.ofNat 128 (natOfBytes old)) then some (bytesOfNat 16 (vbStored c).toNat) else none

/-- Write samples until one meets a miss or a fault; and how many were performed. -/
def State.writeSamples (tlb : TlbId) (ctx : Nat) : List (Nat × Quad) → State → Nat × Moved × State
  | [], s => (0, .done, s)
  | e :: l, s =>
    match s.look tlb ctx e.1 permA with
    | .hit p =>
      if p.tier ≠ 0 then (0, .fault e.1 Cause.rasterRecord, s)
      else if s.houseWaits p then (0, .busy, s)
      else
        match s.dramModify unitTask p 16 (sampleWrite e.2) with
        | (.ok _, s) =>
          let r := State.writeSamples tlb ctx l s
          (r.1 + 1, r.2)
        | (.error c, s) => (0, .fault e.1 c, s)
    | .cause c => (0, .fault e.1 c, s)
    | .miss => (0, .miss e.1, s)
    | .busy => (0, .busy, s)

/-- The head record leaves its queue. -/
def RasterQueue.pop (q : RasterQueue) : RasterQueue := { q with records := q.records.tail, drawing := none }

/-- A malformed record is posted and skipped. -/
def State.badBatch (s : State) (die unit queue seq : Nat) : State :=
  let q := (s.die die).queue unit queue
  let t := TlbId.raster die unit
  (s.postError q.node (t.record Cause.rasterRecord ((q.desc.getD 1 0#32).setWidth 64) (BitVec.ofNat 64 seq))).setRaster die
    unit queue q.pop

/-- What a record's accesses came to. -/
def State.batchMoved (s : State) (die unit queue seq : Nat) (need : Perms) (m : Moved) : State :=
  let q := (s.die die).queue unit queue
  let t := TlbId.raster die unit
  match m with
  | .done => s.setRaster die unit queue q.pop
  | .miss a => s.rasterMiss t q.node a need
  | .busy => s
  | .fault a c =>
    if c = Cause.pageFault then
      (s.setRaster die unit queue { q with suspended := some (a / 65536) }).enterFault t q.node a need (.raster die unit queue)
    else s.badBatch die unit queue seq

/-- How far a raster unit has come with the head record of a queue. -/
def State.setDrawing (s : State) (die unit queue : Nat) (d : Drawing) : State :=
  s.setRaster die unit queue { (s.die die).queue unit queue with drawing := some d }

/-- A raster unit goes on with the head record of a queue, from where it stands. -/
def State.drawBatch (s : State) (die unit queue seq : Nat) (w : List (BitVec 32)) : State :=
  let t := TlbId.raster die unit
  let q := (s.die die).queue unit queue
  let ctx := q.node
  let d := q.drawing.getD ⟨[], [], 0⟩
  match decodeBatch w with
  | none => s.badBatch die unit queue seq
  | some b =>
    match s.pullBytes t ctx (extentAt b.indices (6 * b.nt)) (6 * b.nt) (6 * b.nt) d.indices with
    | (ix, .done, s) =>
      match s.pullBytes t ctx (extentAt b.vertices (16 * b.nv)) (16 * b.nv) (16 * b.nv) d.vertices with
      | (vs, .done, s) =>
        match batchSamples b vs ix with
        | none => s.badBatch die unit queue seq
        | some l =>
          let r := State.writeSamples t ctx (l.drop d.done) s
          (r.2.2.setDrawing die unit queue ⟨ix, vs, d.done + r.1⟩).batchMoved die unit queue seq permA r.2.1
      | (vs, m, s) => (s.setDrawing die unit queue ⟨ix, vs, 0⟩).batchMoved die unit queue seq 4#3 m
    | (ix, m, s) => (s.setDrawing die unit queue ⟨ix, [], 0⟩).batchMoved die unit queue seq 4#3 m

/-- The step of pre-emption that a partition has reached. -/
def State.haltStep (s : State) (part : Nat) : Nat := (s.stage ((s.part part).stages.headD 0)).halted

/-- May a raster unit work on the head record of a queue? A partition that is being pre-empted has only the record in progress
finished (23 R335). -/
def State.rasterOpen (s : State) (q : RasterQueue) : Bool :=
  q.opened && q.suspended.isNone && (decide (s.haltStep q.node < 3) || (q.drawing.isSome && decide (s.haltStep q.node < 5)))

def execRasterRecord (die unit queue : Nat) (s : State) : Result :=
  let q := (s.die die).queue unit queue
  .next (match q.records with
    | [] => s
    | (seq, _, w) :: _ => if s.rasterOpen q then s.drawBatch die unit queue seq w else s)

/-- The last sample of a closing queue is performed: its counter is bumped once, and it is idle. -/
def execRasterQueueComplete (die unit queue : Nat) (s : State) : Result :=
  let q := (s.die die).queue unit queue
  .next (if q.opened ∧ q.left = 0 ∧ q.records.isEmpty then
      match decodeNode q.desc with
      | some n => (s.setRaster die unit queue RasterQueue.idle).unitBump (stageOf n.doneCore) n.doneCore n.doneCounter 1
      | none => s
    else s)

end Sys2Proof.Machine
end

