-- ==== Sys2Proof/Machine/Launch.lean ====
section
/-!
DEFINITION. Launch.lean: the pending-launch store (26 R367, R368, 10 R205), the kernel header (26 R369, 28 R405, R406),
placement (26 R371, 28 R407, 02 R20, R21), the start message (03 R35) and retirement (26 R372).
-/

namespace Sys2Proof.Machine

/-! ## The pending-launch store (26 R367, 10 R205) -/

/-- The record of a cause that the dispatch front end posts (24 R342): the one of CD0 leads. -/
def dfeRecord (cause : BitVec 7) (d0 d1 : Word) : CauseRecord := ⟨cause, 0x3FFF#14, 2#2, 16#11, 0#64, d0, d1⟩

/-- The free entries of a store of 128. -/
def Partition.freeEntries (p : Partition) : List Nat := (List.range 128).filter fun i => (p.store.find i).isNone

/-- An entry is taken: its ticket, and the state after; none while the store is full. -/
def State.enterStore (s : State) (part : Nat) (l : Launch) : Option (Nat × State) :=
  let p := s.part part
  let free := p.freeEntries
  match free[Config.storeEntry s.freeIx % free.length]? with
  | none => none
  | some i =>
    let ticket := i + 1 + 256 * (p.seq % 16777216)
    let l := { l with ticket := ticket, takenAt := s.time, order := p.seq }
    some (ticket, { s.setPart part { p with store := p.store.set i l, seq := p.seq + 1 } with freeIx := s.freeIx + 1 })

/-- A launch as it enters. -/
def newLaunch (header priority : Nat) (args : List Byte) : Launch :=
  { ticket := 0, header := header, priority := priority, args := args, argVa := none, argSize := args.length, hostTag := none
    completion := 0, takenAt := 0#64, order := 0, image := none, suspended := none }

/-- `launch`: the store answers at once (log 2). -/
def execLaunch (d : XName) (a b : Src) : State → Result := plain (do
  destReady d
  let r ← readSrc2 a b
  let v := Quad.low r.1.val
  require (v.extractLsb' 59 5 == 0#5) Cause.messageOperand 0#64
  requireLocal r.2 0
  let n := (Quad.length r.2.val).toNat - (Quad.offset r.2.val).toNat
  require (decide (n ≤ 4096)) Cause.messageOperand 0#64
  match ← accessCheck r.2 needL 0 n 1 with
  | .map _ => pure ()
  | .local o => do
    awaitLocal .m o n
    let s ← get
    let l := newLaunch (v.extractLsb' 0 57).toNat (v.extractLsb' 57 2).toNat (s.readBytes (ulmAddr s.cur.1 o) n)
    match s.enterStore (s.contextOf s.cur.1) l with
    | none => writeWord d 0#64
    | some (ticket, t) => do
      set t
      writeWord d (BitVec.ofNat 64 ticket))

/-! ## Completion writes (26 R368) -/

/-- Try the write of a completion: performed, put off, suspended, or not performed and posted. -/
def State.tryCompletion (s : State) (q : Req) (part addr : Nat) (v : Word) : State :=
  let t := TlbId.copy ((s.part part).stages.headD 0)
  let fail (s : State) (c : BitVec 7) : State :=
    (s.drop q.id).postError part (dfeRecord Cause.dramTransfer (BitVec.ofNat 64 addr) (c.setWidth 64))
  match s.look t part addr 2#3 with
  | .hit p =>
    match s.dramWrite unitTask p (bytesOfNat 8 v.toNat) with
    | (.ok _, s) => s.drop q.id
    | (.error c, s) => fail s c
  | .miss => s.startMiss t part addr 2#3
  | .busy => s
  | .cause c =>
    if c = Cause.pageFault then
      (s.replace { q with body := .completion part addr v (some (addr / 65536)) }).enterFault t part addr 2#3 (.completion part q.id)
    else fail s c

/-- A completion for a kernel that the host launched, if it asked for one. -/
def State.pushCompletion (s : State) (part : Nat) (tag : Option (BitVec 32)) (addr : Nat) (refused : Bool) : State :=
  match tag with
  | some t =>
    if addr = 0 then s
    else s.push (Req.device 0 (.completion part addr (BitVec.ofNat 64 (t.toNat + if refused then 2 ^ 32 else 0)) none))
  | none => s

/-! ## Host records (26 R368, 28 R399) -/

/-- The launch of a host record, if the record breaks no rule. -/
def hostLaunch (bs : List Byte) : Option Launch :=
  let w (i : Nat) : Nat := recNat bs (8 * i) 8
  let header := w 0 % 2 ^ 57
  let completion := w 3 % 2 ^ 57
  if w 0 / 2 ^ 59 = 0 ∧ header % 32 = 0 ∧ w 1 < 2 ^ 57 ∧ w 1 % 8 = 0 ∧ w 2 / 2 ^ 13 % 2 ^ 19 = 0 ∧ w 3 < 2 ^ 57 ∧ completion % 8 = 0 then
    some { newLaunch header (w 0 / 2 ^ 57 % 4) [] with
      argVa := some (w 1), argSize := w 2 % 2 ^ 13, hostTag := some (BitVec.ofNat 32 (w 2 / 2 ^ 32)), completion := completion }
  else none

/-- Is an earlier record of the same host queue still on the host side? -/
def State.hostWaits (s : State) (id part queue : Nat) : Bool :=
  s.reqs.any fun r => decide (r.id < id) &&
    match r.body with
    | .hostRecord p q _ => p == part && q == queue
    | _ => false

/-- A host record reaches the store over the host link (28 R400, R402), in its queue's order, while an entry is free; one that
breaks a rule is posted. -/
def execHostLaunchRecord (id : Nat) (s : State) : Result :=
  .next (match s.req id with
    | some r =>
      match r.body with
      | .hostRecord part queue bs =>
        if s.hostWaits id part queue ∨ (s.part part).freeEntries.isEmpty ∨ s.linkState part 16 ≠ 2#2 then s
        else
          match hostLaunch bs with
          | none => (s.drop id).postError part (dfeRecord Cause.messageOperand (BitVec.ofNat 64 (recNat bs 0x14 4)) 0#64)
          | some l =>
            match (s.drop id).enterStore part l with
            | some (_, t) => t
            | none => s
      | _ => s
    | none => s)

/-! ## The kernel header (28 R405) -/

/-- A field of a header. -/
def hfield (h : List Byte) (off n : Nat) : Nat := recNat h off n

/-- The virtual address that a signed offset field of a header names. -/
def headerAt (va : Nat) (h : List Byte) (off : Nat) : Nat :=
  (((va : Int) + (BitVec.ofNat 32 (hfield h off 4)).toInt) % (2 ^ 57 : Nat)).toNat

def handlerCount (h : List Byte) : Nat := hfield h 0x10 1
def regionCount (h : List Byte) : Nat := hfield h 0x2C 1
def presetCount (h : List Byte) : Nat := hfield h 0x2D 1
def codeSize (h : List Byte) : Nat := hfield h 0x20 4
def imageSize (h : List Byte) : Nat := hfield h 0x24 4
def stackSize (h : List Byte) : Nat := hfield h 0x40 4

/-- Engine need i of a header. -/
def needOf (h : List Byte) (i : Nat) : Nat := hfield h (0x38 + i) 1

/-- May a stage run a header's kernel: its decode table and its engines (28 R407, R410)? -/
def State.serves (s : State) (st : Nat) (h : List Byte) : Bool :=
  decide (hfield h 0x06 2 ≤ (s.stage st).decGen.toNat) && !s.grade.noStage.contains st &&
    decide (needOf h 0 ≤ ((List.range 4).filter fun e => s.grade.hasEngine st e).length) &&
    decide (needOf h 3 ≤ ((List.range 4).filter fun u => !s.grade.noRaster.contains (dieOfStage st * 4 + u)).length)

/-- A core is free when no kernel is placed on it and no thread occupies a slot of it (26 R371). -/
def State.freeCore (s : State) (c : Nat) : Bool :=
  (s.core c).kernel.isNone && (List.range 16).all fun k => (s.thread c k).slot.status == .free

/-- The rectangle at an origin, row by row. -/
def rectangle (origin w h : Nat) : List Nat :=
  (List.range h).flatMap fun i => (List.range w).map fun j => origin + i * 128 + j

/-- The cores of a placement; with `any`, as if every core were free. -/
def State.placement (s : State) (part : Nat) (h : List Byte) (any : Bool) : Option (List Nat) :=
  let p := s.part part
  let ok (c : Nat) : Bool := isCore c && p.stages.contains (stageOf c) && s.serves (stageOf c) h && (any || s.freeCore c)
  let count := hfield h 0x1C 2
  match hfield h 0x18 1 with
  | 1 =>
    let w := hfield h 0x19 1
    let ht := hfield h 0x1A 1
    let hint := hfield h 0x1E 2
    let origins := (if hint = 0x3FFF then [] else [hint]) ++ s.coreList part
    (origins.find? fun o => decide (colOf o + w ≤ 128) && (rectangle o w ht).all ok).map fun o => rectangle o w ht
  | 2 =>
    let l := (p.stages.filter fun st => (coresOf st).all ok).take count
    if l.length = count then some (l.flatMap coresOf) else none
  | 3 =>
    let l := ((s.coreList part).filter ok).take count
    if l.length = count then some l else none
  | _ => none

/-- Are the fields of a placement within their ranges? -/
def placementFields (h : List Byte) : Bool :=
  let f := hfield h
  match f 0x18 1 with
  | 1 => decide (1 ≤ f 0x19 1) && decide (f 0x19 1 ≤ 128) && decide (1 ≤ f 0x1A 1) && decide (f 0x1A 1 ≤ 80) && f 0x1C 2 == 0
  | k => f 0x19 1 == 0 && f 0x1A 1 == 0 && decide (1 ≤ f 0x1C 2) && decide (f 0x1C 2 ≤ if k = 2 then 160 else 10240)

/-- The rules of a header's own fields, by offset: does each hold? The field of a placement that no set of cores could ever hold
is 0x18 (log 61). -/
def State.headerRules (s : State) (part : Nat) (l : Launch) (h : List Byte) : List (Nat × Bool) :=
  let f := hfield h
  let kind := f 0x18 1
  let rect := kind == 1
  let args := f 0x30 4
  [(0x00, f 0 4 == 0x484B5242 && l.header % 32 == 0), (0x04, f 0x04 2 == 1),
     (0x06, (s.part part).stages.any fun st => decide (f 0x06 2 ≤ (s.stage st).decGen.toNat)),
     (0x0C, f 0x10 1 != 0 || f 0x0C 4 == 0), (0x12, decide (f 0x12 2 < 2)), (0x14, decide (1 ≤ f 0x14 1) && decide (f 0x14 1 ≤ 16)),
     (0x15, decide (f 0x14 1 + f 0x15 1 ≤ 16) && decide (f 0x15 1 ≤ 15)), (0x16, f 0x16 2 == 0),
     (0x18, decide (1 ≤ kind) && decide (kind ≤ 3) && (!placementFields h || (s.placement part h true).isSome)),
     (0x19, if rect then decide (1 ≤ f 0x19 1) && decide (f 0x19 1 ≤ 128) else f 0x19 1 == 0),
     (0x1A, if rect then decide (1 ≤ f 0x1A 1) && decide (f 0x1A 1 ≤ 80) else f 0x1A 1 == 0), (0x1B, f 0x1B 1 == 0),
     (0x1C, if rect then f 0x1C 2 == 0 else decide (1 ≤ f 0x1C 2) && decide (f 0x1C 2 ≤ if kind = 2 then 160 else 10240)),
     (0x1E, decide (f 0x1E 2 ≤ 0x3FFF)), (0x20, codeSize h % 4 == 0), (0x2D, decide (f 0x2D 1 ≤ 64)), (0x2E, f 0x2E 2 == 0),
     (0x30, args == l.argSize && (args == 0 || (args % 8 == 0 && decide (args ≤ 4096)))),
     (0x38, decide (needOf h 0 ≤ 4) && decide (needOf h 1 ≤ 1) && decide (needOf h 2 ≤ 1) && decide (needOf h 3 ≤ 4)),
     (0x3C, decide (f 0x3C 4 < 8) && BitVec.ofNat 3 (f 0x3C 4) &&& s.service.absent == 0#3),
     (0x40, decide (16 ≤ stackSize h) && stackSize h % 16 == 0), (0x50, f 0x50 8 == 0 && f 0x58 8 == 0)]

/-! ## The tables and the layout (28 R405, R406; 02 R20) -/

/-- A header's tables as read: handlers, then regions with tile presets. -/
structure Tables where
  handlers : List Byte
  regions : List Byte          -- the region table, then the tile presets
  align : Nat                  -- what the data area is aligned to
deriving DecidableEq, Repr

/-- What the data area of an object is aligned to: 64 bytes at least, and the largest `.align` of its data. No field of the header
gives that; it comes with the object from outside (log 24). -/
def State.alignOf (s : State) (h : List Byte) : Nat := Nat.max 64 (2 ^ Assoc.get 0 s.service.aligns (hfield h 0x48 4))

/-- The size of region i, and the fields of a handler and of a preset. -/
def regionSize (t : Tables) (i : Nat) : Nat := recNat t.regions (8 * i) 4

def handlerWord (t : Tables) (i : Nat) : Nat := recNat t.handlers (8 * i) 8
def presetWord (h : List Byte) (t : Tables) (i : Nat) : Nat := recNat t.regions (8 * (regionCount h + i)) 8

def up64 (n : Nat) : Nat := (n + 63) / 64 * 64

/-- The data area follows the code at the first boundary that is aligned (28 R406). -/
def dataBaseOf (h : List Byte) (t : Tables) : Nat := (codeSize h + t.align - 1) / t.align * t.align

/-- The ULM offset of region i, and with the region count the end of the data area's last region. -/
def regionEnd (h : List Byte) (t : Tables) : Nat → Nat
  | 0 => dataBaseOf h t + imageSize h
  | i + 1 => up64 (regionEnd h t i) + regionSize t i

def regionBase (h : List Byte) (t : Tables) (i : Nat) : Nat := up64 (regionEnd h t i)

def dataEnd (h : List Byte) (t : Tables) : Nat := regionEnd h t (regionCount h)

/-- The class of handler i. -/
def handlerClass (h : List Byte) (t : Tables) (i : Nat) : Nat := hfield h 0x11 1 + handlerWord t i / 2 ^ 32 % 256

def handlerClasses (h : List Byte) (t : Tables) : List Nat := (List.range (handlerCount h)).map (handlerClass h t)

/-- Does a list hold a number twice? -/
def hasTwice : List Nat → Bool
  | [] => false
  | x :: l => l.contains x || hasTwice l

/-- The rules that need a header's tables. -/
def tableRules (h : List Byte) (t : Tables) : List (Nat × Bool) :=
  let handlers := (List.range (handlerCount h)).map (handlerWord t)
  [(0x0C, !hasTwice (handlerClasses h t) && handlers.all fun w =>
       w / 2 ^ 48 == 0 && decide (w / 2 ^ 40 % 256 ≤ regionCount h) && decide (w % 2 ^ 32 < codeSize h)),
     (0x11, (handlerClasses h t).all fun c => decide (1 ≤ c) && decide (c ≤ 255)),
     (0x28, ((List.range (regionCount h)).all fun i => regionSize t i % 16 == 0) &&
       (List.range (presetCount h)).all fun i => presetWord h t i / 2 ^ 46 == 0),
     (0x40, decide (dataEnd h t + 16 * stackSize h ≤ 0x38000))]

/-- The CRC's rule, which needs the code and the data image. -/
def crcRule (h code image : List Byte) : Nat × Bool :=
  (0x48, hfield h 0x48 4 == (crc32c (h.take 0x48 ++ List.replicate 4 0#8 ++ h.drop 0x4C ++ code ++ image)).toNat)

/-- The first field, of those before an offset, whose rule does not hold. -/
def brokenField (before : Nat) (l : List (Nat × Bool)) : Option Nat :=
  firstFail ((l.filter fun e => decide (e.1 < before)).map fun e => (e.1, !e.2))

/-! ## Reading a header (26 R369) -/

/-- An entry is refused: it is freed and a record goes to the error queue; the host's completion says so. -/
def State.refuseLaunch (s : State) (part i : Nat) (l : Launch) (cause : BitVec 7) (d0 d1 : Nat) : State :=
  let p := s.part part
  let s := s.setPart part { p with store := p.store.del i }
  let s := s.postError part (dfeRecord cause (BitVec.ofNat 64 d0) (BitVec.ofNat 64 d1))
  s.pushCompletion part l.hostTag l.completion true

/-- Bytes for an entry through the copy engine of the partition's first stage; a fault suspends or refuses the entry. -/
def State.launchRead (s : State) (part i : Nat) (l : Launch) (va len : Nat) : Except State (List Byte × State) :=
  let t := TlbId.copy ((s.part part).stages.headD 0)
  match s.pullBytes t part (extentAt va len) len len [] with
  | (bs, .done, s) => .ok (bs, s)
  | (_, .miss a, s) => .error (s.startMiss t part a 4#3)
  | (_, .busy, s) => .error s
  | (_, .fault a c, s) =>
    .error (if c = Cause.pageFault then
        let p := s.part part
        (s.setPart part { p with store := p.store.set i { l with suspended := some (a / 65536) } }).enterFault t part a 4#3 (.header part i)
      else s.refuseLaunch part i l Cause.dramTransfer a c.toNat)

/-- Go on with an entry unless one of some rules, of fields before an offset, is broken. -/
def State.checkRules (s : State) (part i : Nat) (l : Launch) (before : Nat) (rules : List (Nat × Bool)) : Except State Unit :=
  match brokenField before rules with
  | some off => .error (s.refuseLaunch part i l Cause.messageOperand l.ticket off)
  | none => .ok ()

/-- The header, then its tables, then its code and data image, each once what stands before it is found right; and a host
record's argument block. -/
def State.readHeader (s : State) (part i : Nat) (l : Launch) : Except State State := do
  let (h, s) ← s.launchRead part i l l.header 96
  let own := s.headerRules part l h
  s.checkRules part i l 0x0C own
  let (t1, s) ← s.launchRead part i l (headerAt l.header h 0x0C) (8 * handlerCount h)
  let (t2, s) ← s.launchRead part i l (headerAt l.header h 0x28) (8 * (regionCount h + presetCount h))
  let rules := own ++ tableRules h ⟨t1, t2, s.alignOf h⟩
  s.checkRules part i l 0x48 rules
  let (code, s) ← s.launchRead part i l (headerAt l.header h 0x08) (codeSize h)
  let (image, s) ← s.launchRead part i l (headerAt l.header h 0x44) (imageSize h)
  s.checkRules part i l 0x60 (crcRule h code image :: rules)
  let (args, s) ← match l.argVa with
    | some va => s.launchRead part i l va l.argSize
    | none => .ok (l.args, s)
  let p := s.part part
  .ok (s.setPart part { p with store := p.store.set i { l with image := some (h, code ++ image, t1 ++ t2), args := args } })

/-- The dispatch front end reads the header of an entry: `id` is 128 * partition + entry. -/
def execHeaderRead (id : Nat) (s : State) : Result :=
  let part := id / 128
  .next (match (s.part part).store.find (id % 128) with
    | some l =>
      if l.image.isNone ∧ l.suspended.isNone then
        match s.readHeader part (id % 128) l with
        | .ok t => t
        | .error t => t
      else s
    | none => s)

/-! ## Placement (26 R371, 28 R407) -/

/-- The effective priority of an entry. -/
def Launch.rank (l : Launch) (now : Word) : Nat := Nat.min 3 (l.priority + (now - l.takenAt).toNat / 1048576)

/-- The entry ranked first, of those that no fault suspends. -/
def State.firstRanked (s : State) (part : Nat) : Option (Nat × Launch) :=
  ((s.part part).store.filter fun e => e.2.suspended.isNone).foldl (fun o e =>
    match o with
    | none => some e
    | some f =>
      if f.2.rank s.time < e.2.rank s.time ∨ (f.2.rank s.time = e.2.rank s.time ∧ e.2.order < f.2.order) then some e else some f)
    (none : Option (Nat × Launch))

/-- Where the argument block lies: free among the 64-byte aligned places that code, data and stacks leave. Where they leave none
it is free among all such places below the wings, and lies over code, data or stacks (log 23). -/
def argOffset (h : List Byte) (t : Tables) (size free : Nat) : Nat :=
  let low := up64 (dataEnd h t)
  let high := 0x38000 - 16 * stackSize h
  if low + size ≤ high then low + 64 * (Config.argPlace free % ((high - low - size) / 64 + 1))
  else 64 * (Config.argPlace free % ((0x38000 - size) / 64 + 1))

/-- A binding of a handler table. -/
def handlerBinding (h : List Byte) (t : Tables) (i : Nat) : Binding :=
  let w := handlerWord t i
  let r := w / 2 ^ 40 % 256
  { pc := BitVec.ofNat 18 w
    region := if r = 0 then none
      else some (mkLinear 0b110000#6 (BitVec.ofNat 57 (regionBase h t (r - 1))) (BitVec.ofNat 31 (regionSize t (r - 1))) 0#32)
    mode := .user }

/-- A tile preset: state empty, owner the core. It is installed as the header gives it, whatever its banks' formats and its end
(DESIGN CHOICE, log 84). -/
def presetTile (h : List Byte) (t : Tables) (i : Nat) : Nat × Tile :=
  let w := presetWord h t i
  (w % 64, { Tile.empty with format := BitVec.ofNat 4 (w / 2 ^ 6), base := BitVec.ofNat 18 (dataBaseOf h t + w / 2 ^ 10 % 2 ^ 18)
                             size := BitVec.ofNat 18 (w / 2 ^ 28) })

/-- Prepare a placed core: code, data area, regions, arguments, tile presets, bindings, and counters if the header clears
them. Its fetches start afresh. -/
def State.prepare (s : State) (core k : Nat) (h : List Byte) (code image : List Byte) (t : Tables) (args : List Byte)
    (argOff : Nat) : State :=
  let w (s : State) (off : Nat) (bs : List Byte) : State := s.writeBytes (ulmAddr core off) bs
  let s := w (w s 0 code) (dataBaseOf h t) image
  let s := (List.range (regionCount h)).foldl (fun s i => w s (regionBase h t i) (List.replicate (regionSize t i) 0#8)) s
  let s := w s argOff args
  let s := (List.range (presetCount h)).foldl (fun s i => s.setTile core (presetTile h t i).1 (presetTile h t i).2) s
  let c := s.core core
  let binds := (List.range (handlerCount h)).foldl (fun b i => Assoc.set b (handlerClass h t i) (handlerBinding h t i)) c.bindings
  s.setCore core { c with
    bindings := binds, kernel := some k, fetch := none, counters := if hfield h 0x12 2 = 1 then [] else c.counters }

/-- Place an entry on cores, and broadcast its start. -/
def State.placeLaunch (s : State) (part i : Nat) (l : Launch) (h body tables : List Byte) (cores : List Nat) : State :=
  let t : Tables := ⟨tables.take (8 * handlerCount h), tables.drop (8 * handlerCount h), s.alignOf h⟩
  let k := s.nextId
  let argOff := argOffset h t l.args.length s.freeIx
  let kernel : Kernel :=
    { part := part, cores := cores, threads := hfield h 0x14 1, stack := stackSize h, dataBase := dataBaseOf h t
      dataSize := dataEnd h t - dataBaseOf h t, argOff := argOff, argSize := l.args.length, first := cores.headD 0
      classes := handlerClasses h t, hostTag := l.hostTag, completion := l.completion
      minGen := hfield h 0x06 2, quietSince := none, mode := (s.part part).modeSet, probe := ⟨0, 0, false, []⟩ }
  let p := s.part part
  let s := { s.setPart part { p with store := p.store.del i } with
    kernels := s.kernels.set k kernel, nextId := k + 1, freeIx := s.freeIx + 1 }
  let s := cores.foldl (fun s c => s.prepare c k h (body.take (codeSize h)) (body.drop (codeSize h)) t l.args argOff) s
  cores.zipIdx.foldl (fun s e => s.push { Req.device e.1 (.start e.1 k e.2) with place := .core e.1 }) s

/-- The placement of a partition's first-ranked entry, if it has one now: the entry, its image and the cores. The partition's
`disp.ctl` is in state 0. -/
def State.placeable (s : State) (part : Nat) : Option ((Nat × Launch) × (List Byte × List Byte × List Byte) × List Nat) := do
  if (s.part part).state ≠ 0#2 then none
  else
    let e ← s.firstRanked part
    let b ← e.2.image
    let cores ← s.placement part b.1 false
    some (e, b, cores)

/-- How many turns a partition is away from the one served last. -/
def State.turnsTo (s : State) (part : Nat) : Nat := (part + 255 - s.service.served % 256) % 256

/-- The leading dispatch front end serves the partitions that have a placeable entry in turn, one placement each (26 R371). -/
def execKernelPlacement (id : Nat) (s : State) : Result :=
  .next (match s.placeable id with
    | some (e, b, cores) =>
      if s.parts.any fun q => (s.placeable q.1).isSome && decide (s.turnsTo q.1 < s.turnsTo id) then s
      else
        let t := s.placeLaunch id e.1 e.2 b.1 b.2.1 b.2.2 cores
        { t with service := { t.service with served := id } }
    | none => s)

/-! ## The start message (03 R35, 02 R21) -/

/-- The registers of thread k of a kernel's core. -/
def kernelRegs (kn : Kernel) (index k : Nat) : List (Nat × XReg) :=
  [(2, stackCap (some kn) k), (4, .cap (mkLinear 0b100000#6 (BitVec.ofNat 57 kn.argOff) (BitVec.ofNat 31 kn.argSize) 0#32)),
   (5, .data (BitVec.ofNat 128 kn.first)), (6, .data (BitVec.ofNat 128 index)), (7, .data (BitVec.ofNat 128 k)),
   (31, dataCap (some kn))]

/-- The start message of a placed core. The spec does not say what becomes of it where a SPAWN has taken one of its slots since
the placement: it waits until they are free (log 76). -/
def execStartMessage (id : Nat) (s : State) : Result :=
  .next (match s.req id with
    | some r =>
      match r.body with
      | .start core k index =>
        match s.kernels.find k with
        | some kn =>
          if (List.range kn.threads).any fun n => (s.thread core n).slot.status != .free then s
          else
            (List.range kn.threads).foldl (fun s n => s.startThread core n (startContext 0#18 .user (kernelRegs kn index n)) (some k))
              ((s.drop id).noticed core)
        | none => s.drop id
      | _ => s
    | none => s)

/-! ## Idleness and traffic (26 R377) -/

/-- What travels: a message, bump, reply, wake, access or group request. -/
def Body.travels : Body → Bool
  | .miss _ _ _ _ _ => false
  | .fault _ _ _ _ _ _ => false
  | .post _ _ => false
  | .pagerPost _ _ _ => false
  | .hostRecord _ _ _ => false
  | .completion _ _ _ _ => false
  | .awaited _ _ _ => false
  | _ => true

/-- Does a request travel to or from a core that a test picks? -/
def Req.touches (r : Req) (p : Nat → Bool) : Bool :=
  r.body.travels && (p r.core ||
    match r.place with
    | .core c => p c
    | _ => false)

/-- Is a request a wake? -/
def Body.isWake : Body → Bool
  | .routerWake _ _ _ _ => true
  | .agentWake _ _ _ _ => true
  | _ => false

/-- Does an atomic wait in an inbox behind a message? It is saved with them (23 R337). -/
def State.heldBack (s : State) (id : Nat) : Bool :=
  s.cores.any fun c =>
    match c.2.queues.inbox with
    | .msg _ :: l => l.contains (.atomic id)
    | _ => false

/-- Is a core idle? While its partition is pre-empted its threads are held, a message may wait in its inbox, and a suspended
queue entry may stay. -/
def State.coreIdle (s : State) (c : Nat) (pre : Bool) : Bool :=
  let q := (s.core c).queues
  (pre || q.inbox.isEmpty) && (s.core c).activation.isNone && q.dq.all (fun e => pre && e.2.suspended.isSome) &&
    s.reqs.all (fun r => !(r.core == c && r.body.travels && !r.body.isWake && !(pre && s.heldBack r.id))) &&
    (List.range 16).all fun k =>
      let v := (s.thread c k).slot
      v.status == .free || v.status == .blocked || pre

/-- Is a walk in progress at a slot? -/
def Ray.walking (r : Ray) : Bool := r.status == 2#4 && r.walk.isSome

/-- Are a stage's units idle? While its partition is pre-empted what has not begun stays, and what has runs to a fault. -/
def State.stageIdle (s : State) (st : Nat) (pre : Bool) : Bool :=
  let g := s.stage st
  (pre || g.tasks.isEmpty) && g.commands.all (fun e => pre && (!e.2.started || e.2.suspended.isSome)) &&
    (pre || g.streams.all fun e => e.2.segs.isEmpty) &&
    g.rays.all fun e => !e.2.walking || (pre && e.2.walk.all fun w => w.current.isNone || w.suspended.isSome)

/-! ## Retirement (26 R372) -/

/-- Is work that one of some cores submitted in progress at a unit? -/
def State.unitsHold (s : State) (cs : List Nat) : Bool :=
  (s.stages.any fun e =>
    (e.2.tasks.any fun t => cs.contains t.submitter) || (e.2.commands.any fun c => cs.contains c.2.core) ||
      (e.2.streams.any fun q => q.2.segs.any fun g => match g with
        | .tile core _ _ _ _ => cs.contains core
        | .dram core _ _ _ _ _ _ => cs.contains core) ||
      e.2.rays.any fun r => r.2.walking && cs.contains r.2.owner) ||
    s.dies.any fun d => d.2.queues.any fun q => q.2.records.any fun r => cs.contains r.2.1

/-- Has a kernel finished? -/
def State.finished (s : State) (k : Nat) (kn : Kernel) : Bool :=
  (s.threads.all fun t => t.2.slot.status == .free || t.2.slot.kernel != some k) &&
    kn.cores.all (fun c => s.coreIdle c false) && !(s.reqs.any fun r => r.touches kn.cores.contains) && !s.unitsHold kn.cores

/-- A new probe starts. -/
def Probe.afresh (q : Probe) : Probe := { q with place := 0, sum := 0, black := false }

/-- A probe passes the interface of a core (26 R378). -/
def Probe.pass (q : Probe) (core : Nat) (r : CoreRegs) : Probe :=
  ⟨q.place + 1, q.sum + r.netCount, q.black || Assoc.get 0 q.seen core != r.netGot, Assoc.put 0 q.seen core r.netGot⟩

/-- Since when the conditions of a kernel's retirement hold, after a step; a count that starts anew is a new detection, in the mode
that the register names (26 R379). -/
def State.trackKernel (s : State) (k : Nat) (kn : Kernel) : State :=
  { s with kernels := s.kernels.set k (if s.finished k kn then { kn with quietSince := some (kn.quietSince.getD s.cycle) }
    else { kn with quietSince := none, mode := if kn.mode then true else (s.part kn.part).modeSet }) }

/-- Has the partition's mechanism (26 R378) found that a kernel has finished: for the hold in mode 0, or by a probe over the
kernel's cores in mode 1? -/
def State.retires (s : State) (k : Nat) (kn : Kernel) : Bool :=
  let p := s.part kn.part
  s.finished k kn &&
    if kn.mode then kn.probe.place == kn.cores.length && !kn.probe.black &&
      Assoc.get 0 kn.probe.seen (kn.cores.headD 0) == (s.core (kn.cores.headD 0)).regs.netGot
    else kn.quietSince.any fun t => decide (t + Nat.max p.hold.toNat p.transit.toNat ≤ s.cycle)

/-- A kernel's probe goes on to the next of its cores that is idle, or starts anew. -/
def State.probeKernel (s : State) (k : Nat) (kn : Kernel) : State :=
  let set (q : Probe) : State := { s with kernels := s.kernels.set k { kn with probe := q } }
  if !kn.mode then s
  else
    match kn.cores[kn.probe.place]? with
    | none => { s with kernels := s.kernels.set k { kn with probe := kn.probe.afresh, mode := (s.part kn.part).modeSet } }
    | some c => if s.coreIdle c false then set (kn.probe.pass c (s.core c).regs) else s

/-- A kernel's core is freed, and its handler classes are unbound. -/
def State.releaseCore (s : State) (kn : Kernel) (core : Nat) : State :=
  let c := s.core core
  s.setCore core { c with kernel := none, bindings := kn.classes.foldl Assoc.del c.bindings }

/-- A kernel found finished retires; `id` names the kernel. A completion that is still to be written is tried again under the
number of its request. -/
def execKernelRetire (id : Nat) (s : State) : Result :=
  .next (match s.kernels.find id with
    | some kn =>
      if s.retires id kn then
        let s := kn.cores.foldl (fun s c => s.releaseCore kn c) s
        { s with kernels := s.kernels.del id }.pushCompletion kn.part kn.hostTag kn.completion false
      else s.probeKernel id kn
    | none =>
      match s.req id with
      | some q =>
        match q.body with
        | .completion part addr v none => s.tryCompletion q part addr v
        | _ => s
      | none => s)

end Sys2Proof.Machine
end

