-- ==== Sys2Proof/Machine/Links.lean ====
section
/-!
DEFINITION. Links.lean: the links (28 R397, R400, R401) and the accesses of peers (R398).
-/

namespace Sys2Proof.Machine

/-! ## Replay and retraining (28 R397, R400) -/

/-- A failed flit is resent from the replay buffer; nothing is lost, duplicated or reordered. -/
def execFlitReplay (port : Nat) (s : State) : Result :=
  let l := s.link port
  .next (if port ≤ 16 ∧ l.state = 2#2 then s.setLink port { l with replays := l.replays + 1#32 } else s)

/-- A flit has failed eight times in a row: the link retrains, and accesses wait. -/
def execLinkRetrain (port : Nat) (s : State) : Result :=
  let l := s.link port
  .next (if port ≤ 16 ∧ l.state = 2#2 then s.setLink port { l with state := 1#2 } else s)

/-- The full width of a port (29 R413). -/
def Grade.lanes (g : Grade) (port : Nat) : Nat := if port = 16 then g.hostLanes else g.peerLanes

/-- The widths that retraining tries: the full one, and its halves down to 8 lanes of the host link and 2 of a peer port. -/
def Grade.widths (g : Grade) (port : Nat) : List Nat :=
  [1, 2, 4].filterMap fun k =>
    let n := g.lanes port / k
    if (if port = 16 then 8 else 2) ≤ n then some n else none

/-! ## Peers (28 R398) -/

/-- The bytes of tier 0 that a request names, and how many. -/
def PeerReq.extent : PeerReq → Nat × Nat
  | .read p n => (p, n)
  | .write p bs => (p, bs.length)
  | .atomic p a => (p, a.bytes)

/-- May a port reach every byte of an extent, which lies in one piece of 32 bytes? -/
def State.granted (s : State) (port : Nat) (e : Nat × Nat) : Bool :=
  inFrames (Assoc.get [] s.service.grants port) e.1 && decide (0 < e.2) && decide (e.1 % 32 + e.2 ≤ 32)

/-- The location of a peer's access: under the mapping that it is stored under (log 67). -/
def State.peerPlace (s : State) (phys : Nat) : DramAt := (dramPlace phys 0 0).under (s.layoutAt phys)

/-- Perform a request: what returns, and the state after it. A peer's access gives a location no mapping. -/
def State.peerDo (s : State) (q : PeerReq) : Option (List Byte) × State :=
  let p := s.peerPlace q.extent.1
  let r := match q with
    | .read _ n => s.dramRead false p n
    | .write _ bs =>
      let w := s.dramWrite unitTask p bs
      (w.1.map fun _ => [], w.2)
    | .atomic _ a => s.dramModify unitTask p a.bytes a.write
  (r.1.toOption, if s.layoutAt q.extent.1 = 0 then { r.2 with layouts := s.layouts } else r.2)

/-- Does a peer's atomic wait for the house core that performs it (29 R415)? -/
def State.peerWaits (s : State) (q : PeerReq) : Bool :=
  match q with
  | .atomic p _ => s.houseWaits (s.peerPlace p)
  | _ => false

/-- The oldest request of a port is performed within the frames that firmware grants it; any other access is refused. It waits
while the link is not up (R400). -/
def execPeerRequest (port : Nat) (s : State) : Result :=
  .next (match Assoc.get [] s.service.peers port with
    | [] => s
    | q :: rest =>
      if (s.link port).state ≠ 2#2 ∨ s.calibrating (s.peerPlace q.extent.1) ∨ s.peerWaits q then s
      else
      let r := if s.granted port q.extent then s.peerDo q else (none, s)
      let v := r.2.service
      { r.2 with service := { v with
          peers := Assoc.put [] v.peers port rest
          answers := Assoc.put [] v.answers port (Assoc.get [] v.answers port ++ [r.1]) } })

end Sys2Proof.Machine
end

