-- ==== Sys2Proof/Machine/Sha256.lean ====
section
/-!
DEFINITION. Sha256.lean: SHA-256, by which a start measures firmware images (29 R411, R412). The spec names the function; its
definition is the published standard's (log 14).
-/

namespace Sys2Proof.Machine

/-- The round constants, and the first hash value. -/
def shaRounds : List (BitVec 32) :=
    [0x428A2F98#32, 0x71374491#32, 0xB5C0FBCF#32, 0xE9B5DBA5#32, 0x3956C25B#32, 0x59F111F1#32, 0x923F82A4#32, 0xAB1C5ED5#32,
     0xD807AA98#32, 0x12835B01#32, 0x243185BE#32, 0x550C7DC3#32, 0x72BE5D74#32, 0x80DEB1FE#32, 0x9BDC06A7#32, 0xC19BF174#32,
     0xE49B69C1#32, 0xEFBE4786#32, 0x0FC19DC6#32, 0x240CA1CC#32, 0x2DE92C6F#32, 0x4A7484AA#32, 0x5CB0A9DC#32, 0x76F988DA#32,
     0x983E5152#32, 0xA831C66D#32, 0xB00327C8#32, 0xBF597FC7#32, 0xC6E00BF3#32, 0xD5A79147#32, 0x06CA6351#32, 0x14292967#32,
     0x27B70A85#32, 0x2E1B2138#32, 0x4D2C6DFC#32, 0x53380D13#32, 0x650A7354#32, 0x766A0ABB#32, 0x81C2C92E#32, 0x92722C85#32,
     0xA2BFE8A1#32, 0xA81A664B#32, 0xC24B8B70#32, 0xC76C51A3#32, 0xD192E819#32, 0xD6990624#32, 0xF40E3585#32, 0x106AA070#32,
     0x19A4C116#32, 0x1E376C08#32, 0x2748774C#32, 0x34B0BCB5#32, 0x391C0CB3#32, 0x4ED8AA4A#32, 0x5B9CCA4F#32, 0x682E6FF3#32,
     0x748F82EE#32, 0x78A5636F#32, 0x84C87814#32, 0x8CC70208#32, 0x90BEFFFA#32, 0xA4506CEB#32, 0xBEF9A3F7#32, 0xC67178F2#32]

def shaStart : List (BitVec 32) :=
  [0x6A09E667#32, 0xBB67AE85#32, 0x3C6EF372#32, 0xA54FF53A#32, 0x510E527F#32, 0x9B05688C#32, 0x1F83D9AB#32, 0x5BE0CD19#32]

/-- The padded message: a one bit, zeros, and the length in bits, the most significant byte first, up to a multiple of 64 bytes. -/
def shaPadded (bs : List Byte) : List Byte :=
  let n := bs.length
  bs ++ [0x80#8] ++ List.replicate ((119 - n % 64) % 64) 0#8 ++
    (List.range 8).map fun i => BitVec.ofNat 8 (8 * n / 256 ^ (7 - i))

/-- The words of a message, the most significant byte first. -/
def shaWords : List Byte → List (BitVec 32)
  | a :: b :: c :: d :: l => (a ++ b ++ c ++ d) :: shaWords l
  | _ => []

/-- The word that follows the last sixteen of the schedule, given newest first. -/
def shaNext (l : List (BitVec 32)) : BitVec 32 :=
  let w (i : Nat) : BitVec 32 := l.getD (i - 1) 0#32
  let s0 := (w 15).rotateRight 7 ^^^ (w 15).rotateRight 18 ^^^ (w 15) >>> 3
  let s1 := (w 2).rotateRight 17 ^^^ (w 2).rotateRight 19 ^^^ (w 2) >>> 10
  w 16 + s0 + w 7 + s1

/-- The 64 words of a block's schedule. -/
def shaSchedule (block : List (BitVec 32)) : List (BitVec 32) :=
  ((List.range 48).foldl (fun l _ => shaNext l :: l) block.reverse).reverse

/-- One round over the eight working variables. -/
def shaRound (v : List (BitVec 32)) (k w : BitVec 32) : List (BitVec 32) :=
  match v with
  | [a, b, c, d, e, f, g, h] =>
    let s1 := e.rotateRight 6 ^^^ e.rotateRight 11 ^^^ e.rotateRight 25
    let t1 := h + s1 + ((e &&& f) ^^^ (~~~e &&& g)) + k + w
    let s0 := a.rotateRight 2 ^^^ a.rotateRight 13 ^^^ a.rotateRight 22
    let t2 := s0 + ((a &&& b) ^^^ (a &&& c) ^^^ (b &&& c))
    [t1 + t2, a, b, c, d + t1, e, f, g]
  | _ => v

/-- The hash value after a block. -/
def shaBlock (h block : List (BitVec 32)) : List (BitVec 32) :=
  let v := (shaRounds.zip (shaSchedule block)).foldl (fun v e => shaRound v e.1 e.2) h
  List.zipWith (· + ·) h v

/-- The hash value after the blocks of a message; the fuel is the number of words. -/
def shaBlocks : Nat → List (BitVec 32) → List (BitVec 32) → List (BitVec 32)
  | 0, h, _ => h
  | n + 1, h, w => if w.length < 16 then h else shaBlocks n (shaBlock h (w.take 16)) (w.drop 16)

/-- SHA-256: 32 bytes. -/
def sha256 (bs : List Byte) : List Byte :=
  let w := shaWords (shaPadded bs)
  (shaBlocks w.length shaStart w).flatMap fun x =>
    [x.extractLsb' 24 8, x.extractLsb' 16 8, x.extractLsb' 8 8, x.extractLsb' 0 8]

end Sys2Proof.Machine
end

