-- ==== Sys2Proof/Machine/SlhDsa.lean ====
section
/-!
DEFINITION. SlhDsa.lean: the signatures of 29 R412: SLH-DSA with SHA-2 and 16-byte hashes, parameter sets 128s and 128f, for messages
without a context. 29 R412 takes the algorithm from FIPS 205, of which the spec gives the sizes alone (PRESUMED, log 82).
-/

namespace Sys2Proof.Machine

/-- A parameter set: the layers of the hypertree and the height of each, and the trees of FORS and their height. -/
structure SlhSet where
  layers : Nat
  height : Nat
  trees : Nat
  forsHeight : Nat
deriving DecidableEq, Repr

/-- SLH-DSA-SHA2-128s and SLH-DSA-SHA2-128f. -/
def slh128s : SlhSet := ⟨7, 9, 14, 12⟩
def slh128f : SlhSet := ⟨22, 3, 33, 6⟩

/-- The bytes of a signature: 7,856 and 17,088. -/
def SlhSet.bytes (p : SlhSet) : Nat := 16 * (1 + p.trees * (1 + p.forsHeight) + p.layers * (35 + p.height))

/-- An address: layer, tree, type, key pair, chain or height, and step or index. -/
structure SlhAdrs where
  layer : Nat
  tree : Nat
  kind : Nat
  pair : Nat
  chain : Nat
  index : Nat
deriving DecidableEq, Repr

/-- A number as n bytes, the highest first. -/
def highFirst (n v : Nat) : List Byte := (List.range n).reverse.map fun i => BitVec.ofNat 8 (v / 256 ^ i)

/-- The number that bytes are, the highest first. -/
def numOfHigh (bs : List Byte) : Nat := bs.foldl (fun n b => n * 256 + b.toNat) 0

/-- The 22 bytes of a compressed address. -/
def SlhAdrs.bytes (a : SlhAdrs) : List Byte :=
  highFirst 1 a.layer ++ highFirst 8 a.tree ++ highFirst 1 a.kind ++ highFirst 4 a.pair ++ highFirst 4 a.chain ++ highFirst 4 a.index

/-- The hash under an address: F, H, T and PRF by what is hashed. -/
def slhHash (seed : List Byte) (a : SlhAdrs) (m : List Byte) : List Byte :=
  (sha256 (seed ++ List.replicate 48 0#8 ++ a.bytes ++ m)).take 16

/-- Chunk i of sixteen bytes. -/
def chunk16 (bs : List Byte) (i : Nat) : List Byte := (bs.drop (16 * i)).take 16

def chunks16 (bs : List Byte) (n : Nat) : List (List Byte) := (List.range n).map (chunk16 bs)

/-- The first n digits of b bits, the highest first. -/
def slhDigits (b : Nat) (bs : List Byte) (n : Nat) : List Nat :=
  (List.range n).map fun i => numOfHigh bs / 2 ^ (8 * bs.length - b * (i + 1)) % 2 ^ b

/-! ## One-time signatures -/

/-- A chain's value after more steps, from step i on. -/
def slhChain (seed : List Byte) (a : SlhAdrs) (x : List Byte) (i : Nat) : Nat → List Byte
  | 0 => x
  | n + 1 => slhHash seed { a with index := i + n } (slhChain seed a x i n)

/-- The 35 digits of a message of sixteen bytes, its checksum's last. -/
def wotsDigits (m : List Byte) : List Nat :=
  let d := slhDigits 4 m 32
  let sum := d.foldl (fun c x => c + (15 - x)) 0
  d ++ slhDigits 4 (highFirst 2 (16 * sum)) 3

/-- The public key from the ends of its chains. -/
def wotsRoot (seed : List Byte) (a : SlhAdrs) (ends : List (List Byte)) : List Byte :=
  slhHash seed { a with kind := 1, chain := 0, index := 0 } ends.flatten

/-- The public key that a signature of a message leads to. -/
def wotsFromSig (seed : List Byte) (a : SlhAdrs) (sig m : List Byte) : List Byte :=
  wotsRoot seed a (((wotsDigits m).zip (chunks16 sig 35)).zipIdx.map fun e =>
    slhChain seed { a with chain := e.2 } e.1.2 e.1.1 (15 - e.1.1))

/-- The secret value of a chain. -/
def wotsSecret (seed secret : List Byte) (a : SlhAdrs) (i : Nat) : List Byte :=
  slhHash seed { a with kind := 5, chain := i, index := 0 } secret

/-- Every chain, taken so many steps. -/
def wotsChains (seed secret : List Byte) (a : SlhAdrs) (steps : List Nat) : List (List Byte) :=
  steps.zipIdx.map fun e => slhChain seed { a with chain := e.2 } (wotsSecret seed secret a e.2) 0 e.1

/-! ## Trees -/

/-- The root that a leaf and its way up lead to. -/
def slhClimb (seed : List Byte) (a : SlhAdrs) (leaf : Nat) (way : List (List Byte)) (x : List Byte) : List Byte :=
  way.zipIdx.foldl (fun x e =>
    slhHash seed { a with chain := e.2 + 1, index := leaf / 2 ^ (e.2 + 1) }
      (if leaf / 2 ^ e.2 % 2 = 0 then x ++ e.1 else e.1 ++ x)) x

/-- A node of a tree whose leaves are given: number i at a height. -/
def slhNode (seed : List Byte) (a : SlhAdrs) (leaf : Nat → List Byte) : Nat → Nat → List Byte
  | 0, i => leaf i
  | z + 1, i =>
    slhHash seed { a with chain := z + 1, index := i } (slhNode seed a leaf z (2 * i) ++ slhNode seed a leaf z (2 * i + 1))

/-- The way up from a leaf, in a tree that stands at number `first` of its leaves' row. -/
def slhWay (seed : List Byte) (a : SlhAdrs) (leaf : Nat → List Byte) (height i : Nat) : List (List Byte) :=
  (List.range height).map fun z => slhNode seed a leaf z ((i / 2 ^ z) ^^^ 1)

/-- The addresses of a one-time key, and of its tree's nodes. -/
def SlhAdrs.wots (a : SlhAdrs) (i : Nat) : SlhAdrs := { a with kind := 0, pair := i, chain := 0, index := 0 }
def SlhAdrs.nodes (a : SlhAdrs) : SlhAdrs := { a with kind := 2, pair := 0, chain := 0, index := 0 }

def xmssFromSig (p : SlhSet) (seed : List Byte) (a : SlhAdrs) (i : Nat) (sig m : List Byte) : List Byte :=
  slhClimb seed a.nodes i (chunks16 (sig.drop 560) p.height) (wotsFromSig seed (a.wots i) sig m)

def xmssLeaf (seed secret : List Byte) (a : SlhAdrs) (i : Nat) : List Byte :=
  wotsRoot seed (a.wots i) (wotsChains seed secret (a.wots i) (List.replicate 35 15))

def xmssSign (p : SlhSet) (seed secret : List Byte) (a : SlhAdrs) (i : Nat) (m : List Byte) : List Byte :=
  (wotsChains seed secret (a.wots i) (wotsDigits m)).flatten ++ (slhWay seed a.nodes (xmssLeaf seed secret a) p.height i).flatten

/-- The layers of the hypertree from the lowest, each with the address of its tree and the leaf it uses. -/
def slhLayers (p : SlhSet) (tree leaf : Nat) : List (SlhAdrs × Nat) :=
  (List.range p.layers).map fun j =>
    (⟨j, tree / 2 ^ (p.height * j), 0, 0, 0, 0⟩, if j = 0 then leaf else tree / 2 ^ (p.height * (j - 1)) % 2 ^ p.height)

def slhTop (p : SlhSet) (seed : List Byte) (tree leaf : Nat) (sig m : List Byte) : List Byte :=
  (slhLayers p tree leaf).zipIdx.foldl (fun x e =>
    xmssFromSig p seed e.1.1 e.1.2 ((sig.drop (16 * (35 + p.height) * e.2)).take (16 * (35 + p.height))) x) m

def slhTopSign (p : SlhSet) (seed secret : List Byte) (tree leaf : Nat) (m : List Byte) : List Byte :=
  ((slhLayers p tree leaf).foldl (fun (r : List Byte × List Byte) e =>
    let sig := xmssSign p seed secret e.1 e.2 r.2
    (r.1 ++ sig, xmssFromSig p seed e.1 e.2 sig r.2)) ([], m)).1

/-! ## FORS -/

def SlhAdrs.fors (tree leaf : Nat) : SlhAdrs := ⟨0, tree, 3, leaf, 0, 0⟩

def forsRoot (seed : List Byte) (a : SlhAdrs) (roots : List (List Byte)) : List Byte :=
  slhHash seed { a with kind := 4, chain := 0, index := 0 } roots.flatten

def forsLeaf (seed : List Byte) (a : SlhAdrs) (i : Nat) (secret : List Byte) : List Byte :=
  slhHash seed { a with chain := 0, index := i } secret

def forsSecret (seed secret : List Byte) (a : SlhAdrs) (i : Nat) : List Byte :=
  slhHash seed { a with kind := 6, chain := 0, index := i } secret

def forsFromSig (p : SlhSet) (seed : List Byte) (a : SlhAdrs) (sig md : List Byte) : List Byte :=
  forsRoot seed a ((slhDigits p.forsHeight md p.trees).zipIdx.map fun e =>
    let i := e.2 * 2 ^ p.forsHeight + e.1
    let part := chunks16 (sig.drop (16 * (1 + p.forsHeight) * e.2)) (1 + p.forsHeight)
    slhClimb seed a i part.tail (forsLeaf seed a i (part.headD [])))

def forsSign (p : SlhSet) (seed secret : List Byte) (a : SlhAdrs) (md : List Byte) : List Byte :=
  (slhDigits p.forsHeight md p.trees).zipIdx.flatMap fun e =>
    let i := e.2 * 2 ^ p.forsHeight + e.1
    forsSecret seed secret a i ++
      (slhWay seed a (fun i => forsLeaf seed a i (forsSecret seed secret a i)) p.forsHeight i).flatten

/-! ## Signing and verifying -/

/-- n bytes of the mask generator over SHA-256. -/
def mgf256 (bs : List Byte) (n : Nat) : List Byte :=
  ((List.range ((n + 31) / 32)).flatMap fun i => sha256 (bs ++ highFirst 4 i)).take n

/-- HMAC with SHA-256 and a key of sixteen bytes. -/
def hmac256 (key m : List Byte) : List Byte :=
  let pad (b : Byte) : List Byte := (key ++ List.replicate 48 0#8).map (b ^^^ ·)
  sha256 (pad 0x5C#8 ++ sha256 (pad 0x36#8 ++ m))

/-- What FORS signs of a message, and the tree and leaf that sign its key. -/
def slhDigest (p : SlhSet) (r key m : List Byte) : List Byte × Nat × Nat :=
  let md := (p.trees * p.forsHeight + 7) / 8
  let nt := (p.height * (p.layers - 1) + 7) / 8
  let nl := (p.height + 7) / 8
  let d := mgf256 (r ++ key.take 16 ++ sha256 (r ++ key ++ m)) (md + nt + nl)
  (d.take md, numOfHigh ((d.drop md).take nt) % 2 ^ (p.height * (p.layers - 1)), numOfHigh (d.drop (md + nt)) % 2 ^ p.height)

/-- Does a signature of a message verify under a public key of 32 bytes? -/
def slhVerify (p : SlhSet) (key m sig : List Byte) : Bool :=
  let seed := key.take 16
  let d := slhDigest p (sig.take 16) key (0#8 :: 0#8 :: m)
  let fors := forsFromSig p seed (SlhAdrs.fors d.2.1 d.2.2) (sig.drop 16) d.1
  sig.length == p.bytes &&
    slhTop p seed d.2.1 d.2.2 (sig.drop (16 * (1 + p.trees * (1 + p.forsHeight)))) fors == key.drop 16

/-- The public key of a secret one: three times sixteen bytes, of which the last are public. -/
def slhPublic (p : SlhSet) (secret : List Byte) : List Byte :=
  let seed := chunk16 secret 2
  let a : SlhAdrs := ⟨p.layers - 1, 0, 0, 0, 0, 0⟩
  seed ++ slhNode seed a.nodes (xmssLeaf seed (chunk16 secret 0) a) p.height 0

/-- The signature of a message by a secret key, with sixteen random bytes. -/
def slhSign (p : SlhSet) (secret m random : List Byte) : List Byte :=
  let seed := chunk16 secret 2
  let m := 0#8 :: 0#8 :: m
  let r := (hmac256 (chunk16 secret 1) (random ++ m)).take 16
  let d := slhDigest p r (slhPublic p secret) m
  let a := SlhAdrs.fors d.2.1 d.2.2
  let sig := forsSign p seed (chunk16 secret 0) a d.1
  r ++ sig ++ slhTopSign p seed (chunk16 secret 0) d.2.1 d.2.2 (forsFromSig p seed a sig d.1)

end Sys2Proof.Machine
end

