-- ==== Sys2Proof/Machine/Boot.lean ====
section
/-!
DEFINITION. Boot.lean: starts and shutdown (29 R411), images and attestation (R412), live update (R415) and telemetry (R417).
-/

namespace Sys2Proof.Machine

/-! ## Keys and images (29 R412) -/

/-- The bytes of a key or signature of n bytes. -/
def octets (n : Nat) (f : Nat → Byte) : List Byte := (List.range n).map f

def vendorKey : List Byte := octets 32 Config.vendorKey

/-- The measurement of an image. -/
def Image.measure (i : Image) : List Byte := sha256 i.bytes

/-- A verified image is installed with its measurement. -/
def Image.install (i : Image) : Image := { i with measured := i.measure, installed := true }

/-- Does the signature of an image verify under the vendor key? -/
def Image.good (i : Image) : Bool := slhVerify slh128s vendorKey i.bytes i.signature

/-- The images of which no later one is for the same unit. -/
def latestImages : List Image → List Image
  | [] => []
  | i :: l => if l.any fun j => j.name == i.name then latestImages l else i :: latestImages l

/-- The decode table of a stage from the images: the last installed one that brings a table. -/
def tableOf (l : List Image) : BitVec 16 × List (BitVec 32 × BitVec 32) :=
  l.foldl (fun t i => if i.installed ∧ i.decGen ≠ 0#16 then (i.decGen, i.decExt) else t) (Stage.reset.decGen, Stage.reset.decExt)

/-! ## Starts (29 R411) -/

/-- No image is installed (29 R412). -/
def Boot.uninstalled (b : Boot) : Boot := { b with images := b.images.map fun i => { i with installed := false } }

/-- Step 1: every unit is reset. DRAM, what leaves the device, and what firmware and the model keep for themselves, stay. -/
def State.restart (s : State) : State :=
  { State.reset with
    dram := s.dram, layouts := s.layouts, flips := s.flips, grade := s.grade, agenda := s.agenda, freeIx := s.freeIx
    nextId := s.nextId
    service := { Service.reset with
      machineCheck := s.service.machineCheck, telemetry := s.service.telemetry, quotes := s.service.quotes
      answers := s.service.answers, absent := s.service.absent, aligns := s.service.aligns, updates := s.service.updates
      boot := s.service.boot.uninstalled } }

/-- Step 3: the calibration that training finds is stored with its CRC. -/
def State.trained (s : State) : State :=
  let bs := Config.calibration s.freeIx
  { s with
    freeIx := s.freeIx + 1
    service := { s.service with boot := { s.service.boot with calibration := some (bs, crc32c bs) } } }

/-- Does the stored calibration pass its CRC? -/
def Boot.calibrated (b : Boot) : Bool := b.calibration.any fun c => crc32c c.1 == c.2

/-- Step 6: the images are installed, and each stage has its decode table. -/
def State.installed (s : State) (images : List Image) : State :=
  let t := tableOf images
  { s with
    stages := s.grade.stages.map fun st => (st, { Stage.reset with decGen := t.1, decExt := t.2 })
    service := { s.service with boot := { s.service.boot with images := images } } }

/-- A partition as it is created: its stages, of which none is fused off (29 R413), its frames and links, and every register at
reset (28 R394, 26 R367). -/
def Partition.created (g : Grade) (p : Partition) : Partition :=
  { Partition.absent with stages := p.stages.filter fun st => g.stages.contains st, frames := p.frames, weights := p.weights, transit := p.transit }

/-- Step 7, and what the start leaves behind for the next one. -/
def State.started (s : State) (kind : BitVec 2) : State :=
  let b := s.service.boot
  { s with
    parts := b.plan.map fun e => (e.1, e.2.created s.grade)
    service := { s.service with boot := { b with
      started := true, lastStart := kind, selfRefresh := false, settings := true
      stored := b.images.map fun i => (i.name, i.measured) } } }

/-- A start fails at a step: it is posted, no partition is created, and no image stays installed. From step 3 on the stacks have
left self-refresh. -/
def State.startFailed (s : State) (step : Nat) : State :=
  let s := s.machineCheck ⟨Cause.startFailure, 0x3FFF#14, 3#2, 0#11, 0#64, BitVec.ofNat 64 step, 0#64⟩
  let b := s.service.boot.uninstalled
  { s with service := { s.service with boot := { b with
      started := false, selfRefresh := b.selfRefresh && decide (step < 3) } } }

/-- Is a cell of DRAM outside tier 0? -/
def beyondTier0 (c : Host.Cell) : Bool := decide (18446744073709551616 ≤ c.1)

/-- Step 4: tier 0 is as DRAM that nothing has written, and no bit is in error. -/
def State.initialised (s : State) : State :=
  { s with dram := s.dram.filter beyondTier0, layouts := [], flips := [] }

/-- A cold start: the steps in order, up to the first that fails. -/
def State.cold (s : State) (kind : BitVec 2) : State :=
  let fails := Config.stepFails s.freeIx
  let s := { s.restart with freeIx := s.freeIx + 1 }
  let images := s.service.boot.images
  if fails 1 then s.startFailed 1
  else if !images.all Image.good then s.startFailed 2
  else if fails 3 then s.startFailed 3
  else
    let s := s.trained
    if fails 4 then s.startFailed 4
    else
    let s := s.initialised
    if fails 5 then s.startFailed 5
    else if fails 6 then s.startFailed 6
    else
      let s := s.installed ((latestImages images).map Image.install)
      if fails 7 then s.startFailed 7 else s.started kind

def execColdStart (s : State) : Result := .next (s.cold 0#2)

/-- May a warm start take an image: its measurement is the stored one, or its signature verifies? -/
def Boot.takes (b : Boot) (i : Image) : Bool := b.stored.contains (i.name, i.measure) || i.good

/-- A warm start keeps tier 0; where it may not go on a cold start begins. -/
def execWarmStart (s : State) : Result :=
  let b := s.service.boot
  .next (if b.selfRefresh ∧ b.calibrated ∧ b.settings ∧ b.images.all b.takes then
      (s.restart.installed ((latestImages b.images).map Image.install)).started 1#2
    else s.cold 2#2)

/-- An orderly shutdown: nothing runs, the stacks refresh themselves, and the calibration is kept. -/
def execOrderlyShutdown (s : State) : Result :=
  let t := s.restart
  .next { t with service := { t.service with boot := { t.service.boot with started := false, selfRefresh := true } } }

/-! ## Live update (29 R415, 28 R410) -/

/-- The least generation that a stage's placed kernels need. -/
def State.neededGen (s : State) (st : Nat) : Nat :=
  (s.kernels.filter fun k => k.2.cores.any fun c => stageOf c == st).foldl (fun m k => Nat.max m k.2.minGen) 0

/-- Install a decode table on a stage, unless a placed kernel needs a later one. -/
def State.installTable (s : State) (i : Image) (st : Nat) : State :=
  if s.neededGen st ≤ i.decGen.toNat then s.setStage st { s.stage st with decGen := i.decGen, decExt := i.decExt } else s

/-- A verified image replaces its unit's. -/
def State.installImage (s : State) (i : Image) : State :=
  let b := s.service.boot
  { s with service := { s.service with boot := { b with
      images := (b.images.filter fun j => j.name != i.name) ++ [i.install] } } }

/-- Is a unit there to be updated: present (29 R413), and for a lane, of a link that is up and has a narrower width? -/
def State.updatable (s : State) (u : FirmwareUnit) : Bool :=
  match u with
  | .decode st | .traversal st => s.grade.stages.contains st
  | .translation => true
  | .house stack house => decide (stack < 12) && (s.grade.groups.getD stack []).contains house
  | .calibration stack channel => decide (stack < 12) && (s.grade.groups.getD stack []).contains (channel / 16)
  | .lane port => decide (port ≤ 16) && (s.link port).state == 2#2 &&
      (s.grade.widths port).any fun n => decide (n < (s.link port).lanes.toNat)

/-- May firmware go over to an update? An image must verify (29 R412); a calibration and a lane need none. -/
def State.startable (s : State) (u : Update) : Bool :=
  s.updatable u.unit && match u.unit with
    | .calibration _ _ | .lane _ => true
    | _ => u.image.any Image.good

/-- The next narrower width of a link (28 R400). -/
def State.narrower (s : State) (port : Nat) : BitVec 8 :=
  BitVec.ofNat 8 (((s.grade.widths port).find? fun n => decide (n < (s.link port).lanes.toNat)).getD 0)

def State.setSwap (s : State) (w : Option UnitSwap) : State := { s with service := { s.service with update := w } }

/-- A unit's drain begins: work aimed at it waits from now on; a link goes on at the next narrower width. -/
def State.drainUnit (s : State) (u : Update) : State :=
  match u.unit with
  | .lane port =>
    let l := s.link port
    (s.setSwap (some ⟨u, false, l.lanes⟩)).setLink port { l with lanes := s.narrower port }
  | _ => s.setSwap (some ⟨u, false, 0#8⟩)

/-- The swap ends: the image is installed, a link is back at its width, and the unit resumes. -/
def State.endUpdate (s : State) (w : UnitSwap) : State :=
  let s := s.setSwap none
  let s := match w.update.image with
    | some i => s.installImage i
    | none => s
  match w.update.unit, w.update.image with
  | .decode st, some i => s.installTable i st
  | .lane port, _ =>
    let l := s.link port
    if l.state = 2#2 then s.setLink port { l with lanes := w.lanes } else s
  | _, _ => s

/-- A live update goes on by a step (29 R415): the next one that may drains its unit; the unit has drained as soon as what it has
begun is done, which each event does whole, and swaps; and it resumes. One that may never go on is given up. -/
def execLiveUpdate (s : State) : Result :=
  .next (match s.service.update with
    | some w => if w.swapping then s.endUpdate w else s.setSwap (some { w with swapping := true })
    | none =>
      match s.service.updates with
      | [] => s
      | u :: l =>
        let s := { s with service := { s.service with updates := l } }
        if s.startable u then s.drainUnit u else s)

/-- A swap under way completes before a pre-emption begins (29 R415). -/
def State.swapFirst (s : State) : State :=
  match s.service.update with
  | some w => s.endUpdate w
  | none => s

/-! ## Attestation (29 R412) -/

/-- What a quote covers, in the order of R412 (log 27); `dec.gen` of every stage that is present. -/
def State.quoteBody (s : State) (nonce : Nat) : List Byte :=
  ((s.service.boot.images.filter Image.installed).flatMap Image.measured) ++
    (s.grade.stages.flatMap fun st => bytesOfNat 2 (s.stage st).decGen.toNat) ++
    bytesOfNat 1 s.grade.code.toNat ++ bytesOfNat 32 nonce ++ bytesOfNat 8 s.time.toNat

/-- The public keys of the identity and of quotes. -/
def identityKey : List Byte := slhPublic slh128s (octets 48 Config.identitySecret)
def quoteKey : List Byte := slhPublic slh128f (octets 48 Config.quoteSecret)

/-- What a quote is checked by: the key that signs it with the identity's signature of that key, and the identity with the
vendor's. -/
def quoteChain : List Byte :=
  quoteKey ++ slhSign slh128s (octets 48 Config.identitySecret) quoteKey (octets 16 Config.certificateRandom) ++ identityKey ++
    octets 7856 Config.identitySignature

/-- The signature of a quote, with fresh random bytes. -/
def quoteSignature (free : Nat) (body : List Byte) : List Byte :=
  slhSign slh128f (octets 48 Config.quoteSecret) body (octets 16 (Config.quoteRandom free))

def execAttestationQuote (nonce : Nat) (s : State) : Result :=
  let b := s.quoteBody nonce
  .next { s with
    freeIx := s.freeIx + 1
    service := { s.service with quotes := s.service.quotes ++ [b ++ quoteSignature s.freeIx b ++ quoteChain] } }

/-! ## Telemetry (29 R417) -/

/-- The record of a die at the end of an interval. -/
def Die.record (d : Die) (die free at' : Nat) : List Byte :=
  bytesOfNat 8 at' ++ bytesOfNat 4 (Config.power free).toNat ++ bytesOfNat 4 (Config.energy free).toNat ++
    bytesOfNat 2 (Config.temperature free).toNat ++ bytesOfNat 2 (Nat.min d.delayed 65535) ++ bytesOfNat 4 d.heldCycles ++
    bytesOfNat 1 die ++ bytesOfNat 1 d.telSeq.toNat ++ bytesOfNat 6 0

/-- Every 250 µs of timestamp. -/
def execTelemetryRecord (die : Nat) (s : State) : Result :=
  let d := s.die die
  let at' := d.telAt + 250000
  .next (if die < 4 ∧ at' ≤ s.time.toNat then
      let s := s.setDie die { d with telSeq := d.telSeq + 1#8, telAt := at', delayed := 0, heldCycles := 0 }
      { s with freeIx := s.freeIx + 1
               service := { s.service with telemetry := s.service.telemetry ++ [d.record die s.freeIx at'] } }
    else s)

end Sys2Proof.Machine
end

