-- ==== Sys2Proof/Machine/Sys.lean ====
section
/-!
DEFINITION. Sys.lean: control registers (23 R322, R329), the system instructions of major 26 (R328 to R334), and the curtain
(29 R416).
-/

namespace Sys2Proof.Machine

/-! ## Control registers (23 R322) -/

/-- The numbers of the registers that exist once for each context. -/
def contextCsr (n : Nat) : Bool :=
  [0x000, 0x001, 0x005, 0x006, 0x007, 0x020, 0x021, 0x022, 0x023, 0x040, 0x041, 0x042, 0x043, 0x044, 0x045].contains n

/-- What a mode may do with a register. -/
inductive CsrAccess where
  | unassigned
  | none
  | ro
  | rw
deriving DecidableEq, Repr

/-- The access of R322's table. -/
def csrAccess (m : Mode) (n : Nat) : CsrAccess :=
  if !contextCsr n ∧ !coreCsr n then .unassigned
  else if [0x002, 0x003, 0x004, 0x005, 0x007].contains n then .ro
  else
    match m with
    | .firmware => .rw
    | .supervisor =>
      if 0x070 ≤ n ∧ n ≤ 0x073 then .none
      else if n = 0x060 ∨ 0x080 ≤ n then .ro
      else .rw
    | .user =>
      if n < 0x002 then .rw
      else if n = 0x006 ∨ (0x008 ≤ n ∧ n ≤ 0x010) ∨ (0x040 ≤ n ∧ n ≤ 0x045) then .ro
      else .none

/-- A loop register: entry e, field f. -/
def LoopStack.field (l : LoopStack) (n : Nat) : Word :=
  let e := if n < 3 then l.e0 else l.e1
  match n % 3 with
  | 0 => e.startPc.setWidth 64
  | 1 => e.stopPc.setWidth 64
  | _ => e.count.setWidth 64

def LoopStack.setField (l : LoopStack) (n : Nat) (v : Word) : LoopStack :=
  let e := if n < 3 then l.e0 else l.e1
  let e := match n % 3 with
    | 0 => { e with start := v.extractLsb' 1 17 }
    | 1 => { e with stop := v.extractLsb' 1 17 }
    | _ => { e with count := v.setWidth 32 }
  if n < 3 then { l with e0 := e } else { l with e1 := e }

/-- A control register as the current context reads it. -/
def State.csrRead (s : State) (n : Nat) : Word :=
  let c := s.img
  match n with
  | 0x000 => c.fpCtrl.setWidth 64
  | 0x001 => c.fpFlags.setWidth 64
  | 0x005 => BitVec.ofNat 64 s.cur.2
  | 0x006 => c.loops.depth.setWidth 64
  | 0x007 => c.mode.code.setWidth 64
  | 0x020 => c.trap.word 0
  | 0x021 => c.trap.word 1
  | 0x022 => c.trap.word 2
  | 0x023 => c.trap.word 3
  | n => if 0x040 ≤ n ∧ n ≤ 0x045 then c.loops.field (n - 0x040) else s.coreCsrWord s.cur.1 n

/-- A trap register written (R323): the handler bit of the status is RO, and reserved bits are ignored. -/
def TrapRegs.write (r : TrapRegs) (i : Nat) (v : Word) : TrapRegs :=
  match i with
  | 0 => { r with cause := v.setWidth 7 }
  | 1 => { r with pc := v.setWidth 18 }
  | 2 => { r with addr := v }
  | _ => { r with stat := (v.setWidth 8 &&& 0xE3#8) ||| (r.stat &&& 0x10#8) }

/-- `loop.depth` takes 0, 1 or 2 (04 R58). -/
def LoopStack.setDepth (l : LoopStack) (v : Word) : LoopStack :=
  let d : BitVec 2 := v.setWidth 2
  if d = 3#2 then l else { l with depth := d }

/-- `dq.fault`: writing 1 to the valid bit clears it (06 R88). -/
def State.writeDqFault (s : State) (core : Nat) (v : Word) : State := if v.getLsbD 0 then s.clearFault core else s

/-- A write to a per-core control register that R322 lets through, from firmware or not. The registers of `time`, `core.xy`
and `dec.gen` are RO in every mode. -/
def State.coreCsrWrite (s : State) (core n : Nat) (v : Word) (fw : Bool) : State :=
  let r := (s.core core).regs
  match n with
  | 0x010 => s.setRegs core { r with hndBudget := v.setWidth 32 }
  | 0x024 => s.setRegs core { r with trapVec := v.extractLsb' 9 9 }
  | 0x025 => s.setRegs core { r with trapSave := v.extractLsb' 8 10 }
  | 0x030 => s.writeDqFault core v
  | 0x060 => if fw then s.setRegs core { r with preStat := v.setWidth 2 } else s
  | 0x080 => if fw then s.setRegs core { r with snapTime := v } else s
  | 0x081 => if fw then s.setRegs core { r with snapPc0 := v } else s
  | 0x082 => if fw then s.setRegs core { r with snapPc1 := v } else s
  | 0x083 => if fw then s.setRegs core { r with snapIssue := v } else s
  | n =>
    if 0x070 ≤ n ∧ n ≤ 0x073 then if fw then s.setRegs core { r with fw := r.fw.write (n - 0x070) v } else s
    else if 0x008 ≤ n ∧ n ≤ 0x00F then
      if (s.core core).bankMay (n - 8) (v.setWidth 4) then s.setBank core (n - 8) (v.setWidth 4) else s
    else s

/-- Write a control register that the mode may write. -/
def csrWrite (n : Nat) (v : Word) : Op Unit := do
  let s ← get
  let c := s.img
  match n with
  | 0x000 => set (s.setImg { c with fpCtrl := v.setWidth 13 &&& 0x1F07#13 })
  | 0x001 => set (s.setImg { c with fpFlags := v.setWidth 5 })
  | 0x006 => set (s.setImg { c with loops := c.loops.setDepth v })
  | 0x020 => set (s.setImg { c with trap := c.trap.write 0 v })
  | 0x021 => set (s.setImg { c with trap := c.trap.write 1 v })
  | 0x022 => set (s.setImg { c with trap := c.trap.write 2 v })
  | 0x023 => set (s.setImg { c with trap := c.trap.write 3 v })
  | n => do
    if 0x040 ≤ n ∧ n ≤ 0x045 then set (s.setImg { c with loops := c.loops.setField (n - 0x040) v })
    else do
      if 0x008 ≤ n ∧ n ≤ 0x00F then
        require ((s.core s.cur.1).bankMay (n - 8) (v.setWidth 4)) Cause.tileFormat (BitVec.ofNat 64 (n - 8))
      set (s.coreCsrWrite s.cur.1 n v (c.mode == .firmware))

/-- The access of the current mode; one it has not is refused before anything is read or written. -/
def csrCheck (n : BitVec 11) : Op CsrAccess := do
  let a := csrAccess (← curMode) n.toNat
  legal (a != .unassigned)
  require (a != .none) Cause.csrPrivilege (n.setWidth 64)
  pure a

/-- A read of `time` follows the reads that a fence in force orders before later ones: the idiom of 07 R112 waits by it (07 R123,
log 48). -/
def timeReady (n : BitVec 11) : Op Unit := do
  if n = 0x002#11 then awaitFences .r

def execCsrr (d : XName) (n : BitVec 11) : State → Result := plain (do
  let _ ← csrCheck n
  destReady d
  timeReady n
  writeWord d ((← get).csrRead n.toNat))

def execCsrw (a : Src) (n : BitVec 11) : State → Result := plain (do
  let acc ← csrCheck n
  let r ← readSrc a
  if acc = .rw then csrWrite n.toNat (Quad.low r.val))

def execCsrx (d : XName) (a : Src) (n : BitVec 11) : State → Result := plain (do
  let acc ← csrCheck n
  destReady d
  timeReady n
  let r ← readSrc a
  let old := (← get).csrRead n.toNat
  if acc = .rw then csrWrite n.toNat (Quad.low r.val)
  writeWord d old)

/-- A supervisor's write to a slot's `loop.depth` (04 R58), by itself. -/
def execLoopDepthWrite (core ctx value : Nat) (s : State) : Result :=
  let c := s.liveImg core ctx
  .next (s.setLiveImg core ctx { c with loops := c.loops.setDepth (BitVec.ofNat 64 value) })

/-- A write to `bank.fmt` that changes nothing while a tile of the bank is not empty (06 R93). -/
def execBankFmtWrite (core bank value : Nat) (s : State) : Result :=
  .next (if bank < 8 ∧ (s.core core).bankMay bank (BitVec.ofNat 4 value) then s.setBank core bank (BitVec.ofNat 4 value)
    else s)

/-! ## `hcall`, `eret`, `wfi` (23 R330, R331) -/

def execHcall (n : BitVec 11) : State → Result := finish (stop (.trapNext Cause.supervisorCall (n.setWidth 64)))

def execEret : State → Result := finish eretOp

def execWfi : State → Result := finish (do
  notInHandler
  pure (.hold .event))

def execWfiEndWithoutEvent (core ctx : Nat) (s : State) : Result :=
  let v := (s.thread core ctx).slot
  .next (if v.status = .blocked ∧ v.wait = .event then s.retireHeld core ctx else s)

/-! ## TLB instructions (23 R332, 25 R353, R364) -/

/-- The bits below the page size that an entry's two page fields must have clear. -/
def lowPageBits (size : BitVec 2) : Nat := if size = 0#2 then 0 else if size = 1#2 then 5 else 14

/-- Does TLBW refuse an entry (25 R353)? -/
def badEntry (e : Quad) : Bool :=
  let size := e.extractLsb' 125 2
  let low := 2 ^ lowPageBits size
  !e.getLsbD 127 || size == 3#2 || e.extractLsb' 57 7 != 0#7 || e.extractLsb' 0 16 != 0#16 ||
    (e.extractLsb' 16 41).toNat % low != 0 || (e.extractLsb' 64 40).toNat % low != 0 ||
    (e.getLsbD 108 && (e.extractLsb' 109 16 != 0#16 || e.extractLsb' 64 44 != 0#44))

/-- The TLB that s2 names, with its stage where it has one; a fused-off unit has none (29 R413). -/
def tlbTarget (g : Grade) (v : Word) : Option TlbId :=
  let rest := v.extractLsb' 22 40
  let body := v.extractLsb' 0 16
  if rest ≠ 0#40 then none
  else
    match (v.extractLsb' 62 2).toNat with
    | 0 =>
      let pair := body.toNat
      if pair < 16384 ∧ g.hasCore pair then some (.core pair) else none
    | 1 =>
      let row := (body.extractLsb' 6 3).toNat
      let st := (body.extractLsb' 9 2).toNat * 40 + row * 8 + (body.extractLsb' 3 3).toNat
      if body.toNat ≥ 2048 ∨ row ≥ 5 ∨ g.noStage.contains st then none
      else if body.extractLsb' 0 3 = 4#3 then some (.copy st)
      else if body.extractLsb' 0 3 = 5#3 then some (.trav st)
      else none
    | 2 => if body.toNat < 16 ∧ !g.noRaster.contains (body.toNat % 4 * 4 + body.toNat / 4) then some (.raster (body.toNat % 4) (body.toNat / 4)) else none
    | _ => none

/-- Is a TLB's unit in the issuer's partition? A raster unit serves the partitions of its die. -/
def State.tlbInPart (s : State) (core : Nat) : TlbId → Bool
  | .core c => s.samePart core c
  | .copy st => s.sameStage core st
  | .trav st => s.sameStage core st
  | .raster d _ =>
    match s.partOf core with
    | some p => (s.part p).stages.any fun st => dieOfStage st == d
    | none => false

/-- The context an entry is written for: the target unit's current one; a raster unit's is that of the miss it serves. -/
def State.tlbContext (s : State) (t : TlbId) : Nat :=
  match t with
  | .core c => s.contextOf c
  | .copy st => s.contextOfStage st
  | .trav st => s.contextOfStage st
  | .raster _ _ =>
    (s.reqs.findSome? fun r =>
      match r.body with
      | .miss t' c _ _ _ => if t' = t then some c else none
      | _ => none).getD (s.contextOf s.cur.1)

def execTlbw (a b : Src) : State → Result := plain (do
  supervisorOnly
  let r ← readSrc2 a b
  let v := Quad.low r.2.val
  require (!badEntry r.1.val) Cause.tlbOperand 0#64
  match tlbTarget (← get).grade v with
  | none => trap Cause.tlbOperand 0#64
  | some t => do
    let s ← get
    require (s.tlbInPart s.cur.1 t) Cause.partitionBoundary (v.extractLsb' 0 16 |>.setWidth 64)
    let index := if v.getLsbD 21 then (Config.tlbVictim s.freeIx).toNat else (v.extractLsb' 16 5).toNat
    set ({ s with freeIx := s.freeIx + 1 }.install t index ⟨s.tlbContext t, r.1.val⟩))

/-- The TLBs that TLBI reaches. -/
def tlbsNear (st : Nat) : List TlbId :=
  (coresOf st).map TlbId.core ++ [.copy st, .trav st] ++ (List.range 4).map fun u => .raster (dieOfStage st) u

/-- `tlbi`: it holds while an access of the stage translated with an invalidated entry is not performed (25 R364). -/
def execTlbi (a : Src) : State → Result := plain (do
  supervisorOnly
  let r ← readSrc a
  let v := Quad.low r.val
  require (v.extractLsb' 57 6 == 0#6) Cause.tlbOperand 0#64
  let s ← get
  let st := stageOf s.cur.1
  let ctx := s.contextOf s.cur.1
  let va := (v.extractLsb' 0 57).toNat
  let hit (e : TlbEntry) : Bool := v.getLsbD 63 || e.covers va
  let t := (tlbsNear st).foldl (fun s t => s.dropEntries t ctx hit) s
  let open' := s.reqs.any fun q => stageOf q.core == st &&
    match q.body with
    | .atomic x => x.phys.any fun p => v.getLsbD 63 || x.addr / p.page == va / p.page
    | _ => false
  if open' then stop (.waitWith t .retry) else set t)

def execTlbp (d : XName) (a : Src) : State → Result := plain (do
  supervisorOnly
  destReady d
  let r ← readSrc a
  let s ← get
  let va := ((Quad.low r.val).extractLsb' 0 57).toNat
  writeX d (((s.lookup (.core s.cur.1) (s.contextOf s.cur.1) va).map TlbEntry.bits).getD 0#128) false)

/-! ## Saving and loading a slot (23 R333) -/

/-- The slot an instruction names: not the issuing one. -/
def namedSlot (v : Word) : Op Nat := do
  let s ← get
  require (decide (v.toNat < 16) && v.toNat != s.cur.2) Cause.contextOperand v
  pure v.toNat

/-- Has every pending producer of a slot delivered, and have its generators acted as 03 R30 gives? -/
def State.drained (s : State) (core k : Nat) : Bool :=
  let t : Thread := ⟨s.liveImg core k, (s.thread core k).slot⟩
  ((List.range 32).all fun r => (t.img.genOf (BitVec.ofNat 5 r)).isSome || !t.pendingX (BitVec.ofNat 5 r)) &&
    (t.img.v.toList.all VReg.full) && t.img.appended

/-- Mark a slot held. -/
def State.holdSlot (s : State) (core k : Nat) : State :=
  let t := s.thread core k
  s.setThread core k { t with slot := { t.slot with held := true } }

/-- A held slot's image is whole, and software's. -/
def State.markSaved (s : State) (core k : Nat) : State :=
  let t := s.thread core k
  s.setThread core k { t with slot := { t.slot with held := true, saved := true } }

/-- The image of a held slot is made whole in the wings. -/
def State.saveSlot (s : State) (core k : Nat) : State :=
  let v := (s.thread core k).slot
  if v.resident then s.streamOut core k
  else if v.status = .free then s.writeBytes (imageAddr core k) (encodeImage Context.zero)
  else s

def execCtxsv (a : Src) : State → Result := plain (do
  supervisorOnly
  let r ← readSrc a
  let k ← namedSlot (Quad.low r.val)
  let s ← get
  let core := s.cur.1
  if (s.thread core k).slot.saved then pure ()
  else if s.drained core k then set ((s.saveSlot core k).markSaved core k)
  else stop (.waitWith (s.holdSlot core k) .retry))

def execCtxld (a : Src) : State → Result := plain (do
  supervisorOnly
  let r ← readSrc a
  let k ← namedSlot (Quad.low r.val)
  let s ← get
  let core := s.cur.1
  match imageFault s (imageAddr core k) with
  | some off => trap Cause.contextImage (BitVec.ofNat 64 off)
  | none => do
    let t := s.thread core k
    let s := s.setThread core k { t with slot := { t.slot with held := false, saved := false } }
    set (if t.slot.status = .ready ∧ t.slot.wait = .over then s.retireHeld core k else s))

/-! ## The curtain (23 R334, 29 R416) -/

/-- A block: a core by its pair, or a stage unit as 16384 + stage * 8 + unit. Is it present? -/
def Grade.hasBlock (g : Grade) (b : Nat) : Bool :=
  if b < 16384 then g.hasCore b
  else
    let st := (b - 16384) / 8
    let u := (b - 16384) % 8
    decide (st < 160) && decide (u < 7) && !g.noStage.contains st && !(decide (u < 4) && g.noEngine.contains (st * 4 + u))

/-- The word that names a resident context in a snapshot. -/
def State.snapWord (s : State) (core : Nat) (ctx : Option Nat) : Word :=
  match ctx with
  | some k => BitVec.ofNat 32 (k * 65536) ++ (s.thread core k).img.pc.setWidth 32
  | none => 0#64

/-- The count a stage unit latches: an engine's tasks, the copy engine's commands, ray slots in use, all tasks. -/
def Stage.unitCount (g : Stage) (u : Nat) : Nat :=
  match u with
  | 4 => g.commands.length
  | 5 => (g.rays.filter fun r => r.2.status != 0#4).length
  | 6 => g.tasks.length
  | u => (g.tasks.filter fun t => t.status == 2#3 && t.engine == u).length

/-- A block latches its snapshot. -/
def State.latch (s : State) (time : Word) (b : Nat) : State :=
  if b < 16384 then
    let res := (List.range 16).filter fun k => (s.thread b k).slot.resident
    let r := (s.core b).regs
    s.setRegs b { r with snapTime := time, snapPc0 := s.snapWord b (res.head?), snapPc1 := s.snapWord b (res.tail.head?)
                         snapIssue := BitVec.ofNat 64 r.issued }
  else
    let g := s.stage ((b - 16384) / 8)
    let u := (b - 16384) % 8
    s.setStage ((b - 16384) / 8) { g with snaps := Assoc.put 0#64 g.snaps u (BitVec.ofNat 64 (g.unitCount u)) }

def execSnap (d : XName) : State → Result := plain (do
  let s ← get
  require (s.img.mode == .firmware) Cause.privileged s.curWord
  await s.service.curtain.isNone
  destReady d
  let dst ← lateDest d 8 false false
  let id ← pushReq none (.core s.cur.1) [] (.reply dst [] false)
  let t ← get
  set { t with service := { t.service with
    curtain := some ⟨t.time, t.cycle, t.cur.1, id, []⟩ } })

/-- The curtain's window of 64 cycles is over. -/
def State.curtainClosed (s : State) (c : Curtain) : Bool := decide (c.raisedAt + 64 < s.cycle)

/-- A present block misses the window: it latches late, and "curtain" is posted and deferred to the issuer. -/
def execCurtainTimeout (block : Nat) (s : State) : Result :=
  .next (match s.service.curtain with
    | some c =>
      if s.curtainClosed c ∧ s.grade.hasBlock block ∧ !c.latched.contains block then
        let s := s.latch c.time block
        let unit : BitVec 11 := if block < 16384 then 0#11 else engineName ((block - 16384) / 8) ((block - 16384) % 8)
        let agent : BitVec 2 := if block < 16384 then 0#2 else 1#2
        let core : BitVec 14 := if block < 16384 then BitVec.ofNat 14 block else 0x3FFF#14
        let s := s.machineCheck ⟨Cause.curtain, core, agent, unit, 0#64, 0#64, 0#64⟩
        let s := { s with service := { s.service with curtain := some { c with latched := block :: c.latched } } }
        match s.req c.id with
        | some r =>
          if s.present r then
            s.defer r.core r.ctx ⟨Cause.curtain, BitVec.ofNat 64 (agent.toNat * 2 ^ 30 + unit.toNat * 2 ^ 32), 0#7⟩
          else s
        | none => s
      else s
    | none => s)

/-- The present blocks. -/
def Grade.blocks (g : Grade) : List Nat := (List.range (16384 + 160 * 8)).filter g.hasBlock

/-- The present blocks that have still to latch. -/
def State.unlatched (s : State) (c : Curtain) : List Nat := s.grade.blocks.filter fun b => !c.latched.contains b

/-- Within the window some blocks latch, each as a free value says. -/
def State.latchSome (s : State) (c : Curtain) : State :=
  let now := (s.unlatched c).filter (Config.latches s.freeIx)
  let s := now.foldl (fun s b => s.latch c.time b) s
  { s with freeIx := s.freeIx + 1, service := { s.service with curtain := some { c with latched := now ++ c.latched } } }

/-- The curtain falls, and d receives the timestamp. -/
def State.fallCurtain (s : State) (c : Curtain) : State :=
  let s := { s with service := { s.service with curtain := none } }
  match s.req c.id with
  | some r =>
    match r.body with
    | .reply dst _ _ => s.deliver r dst (bytesOfNat 8 c.time.toNat) false
    | _ => s
  | none => s

/-- Blocks latch while the window is open; once every block has, the curtain falls. -/
def execCurtainFall (s : State) : Result :=
  .next (match s.service.curtain with
    | some c =>
      if (s.unlatched c).isEmpty then s.fallCurtain c
      else if s.curtainClosed c then s
      else s.latchSome c
    | none => s)

end Sys2Proof.Machine
end

