-- ==== Sys2Proof/Machine/Quiesce.lean ====
section
/-!
DEFINITION. Quiesce.lean: quiescence (26 R377, R378, 10 R208), pre-emption and restore of a partition (23 R335, R336, 26 R380),
and its reset (25 R361).
-/

namespace Sys2Proof.Machine

/-! ## Detection (26 R378) -/

/-- Is a core of a partition? -/
def State.inPart (s : State) (p core : Nat) : Bool := (s.part p).stages.contains (stageOf core)

/-- Is a request a wake of a partition's context (25 R362)? -/
def Body.wakes (p : Nat) : Body → Bool
  | .routerWake _ ctx _ _ => ctx == p
  | .agentWake _ ctx _ _ => ctx == p
  | _ => false

/-- Is a partition quiescent: every core and unit idle, and nothing in flight? -/
def State.quiet (s : State) (p : Nat) : Bool :=
  let pre := (s.part p).state == 1#2
  (s.coreList p).all (fun c => s.coreIdle c pre) && (s.part p).stages.all (fun st => s.stageIdle st pre) &&
    !s.reqs.any fun r => (r.touches (s.inPart p) && !r.body.isWake && !(pre && s.heldBack r.id)) || r.body.wakes p

/-- The interfaces in core-list order: the one at a position. -/
def State.interface (s : State) (p i : Nat) : Nat := (s.coreList p).getD i 0

/-- Is an interface idle? The units of a stage report through its core at column 0, row 0. -/
def State.interfaceIdle (s : State) (p core : Nat) : Bool :=
  let pre := (s.part p).state == 1#2
  s.coreIdle core pre && (core != coreAt (stageOf core) 0 0 || s.stageIdle (stageOf core) pre)

/-- Has the probe come back to the first interface as a detection needs? -/
def State.probeHolds (s : State) (p : Nat) : Bool :=
  let q := (s.part p).probe
  let first := s.interface p 0
  q.place == (s.coreList p).length && !q.black && q.sum == 0 && s.interfaceIdle p first &&
    Assoc.get 0 q.seen first == (s.core first).regs.netGot

/-- Is quiescence detected now? -/
def State.detects (s : State) (p : Nat) : Bool :=
  let q := s.part p
  if q.mode then s.probeHolds p
  else
    match q.quietSince with
    | some t => s.quiet p && decide (t + Nat.max q.hold.toNat q.transit.toNat ≤ s.cycle)
    | none => false

/-- A new detection begins, in the mode that the register names. -/
def Partition.begin (q : Partition) : Partition := { q with mode := q.modeSet, probe := q.probe.afresh }

/-- The count of quiet cycles of a partition, after a step. -/
def State.track (s : State) (p : Nat) : State :=
  let q := s.part p
  if s.quiet p then s.setPart p { q with quietSince := some (q.quietSince.getD s.cycle) }
  else s.setPart p { q with quietSince := none, mode := if q.mode then true else q.modeSet }

/-- Release the threads of a core that QUIESCE holds. -/
def State.releaseQuiesce (s : State) (core : Nat) : State :=
  (List.range 16).foldl (fun s k =>
    let v := (s.thread core k).slot
    if v.status = .blocked ∧ v.wait = .quiescence then s.retireHeld core k else s) s

/-- Quiescence is detected: QUIESCE ends on every core. A partition that is being pre-empted goes on with its step 4 instead. -/
def execQuiescenceDetected (part : Nat) (s : State) : Result :=
  .next (if (s.part part).state = 0#2 ∧ s.detects part then
      (s.coreList part).foldl State.releaseQuiesce (s.setPart part { (s.part part).begin with quietSince := none })
    else s)

/-- The probe of mode 1 passes an idle interface; back at the first one without a detection, a new one starts. -/
def execQuiesceProbe (part : Nat) (s : State) : Result :=
  let q := s.part part
  let n := (s.coreList part).length
  .next (if !q.mode ∨ n = 0 then s
    else if n ≤ q.probe.place then if s.probeHolds part then s else s.setPart part q.begin
    else
      let core := s.interface part q.probe.place
      if s.interfaceIdle part core then s.setPart part { q with probe := q.probe.pass core (s.core core).regs } else s)

/-! ## Pre-emption (23 R335, 26 R380) -/

/-- `pre.stat` of every core of a partition. -/
def State.setPreStat (s : State) (part : Nat) (v : BitVec 2) : State :=
  (s.coreList part).foldl (fun s c => s.setRegs c { (s.core c).regs with preStat := v }) s

/-- A partition's stages reach a step of pre-emption, or none. -/
def State.haltStages (s : State) (part k : Nat) : State :=
  (s.part part).stages.foldl (fun s st => s.setStage st { s.stage st with halted := k }) s

/-- Command 01, acted on in state 0: step 1 begins. -/
def State.preempt (s : State) (part : Nat) : State :=
  let p := s.part part
  if p.state = 0#2 ∧ !p.stages.isEmpty then
    ((s.swapFirst.setPart part { p with state := 1#2, saveDone := 0 }).setPreStat part 1#2).haltStages part 1
  else s

def execPreemptCommand (part : Nat) (s : State) : Result := .next (s.preempt part)

/-- Has each raster unit finished the partition's record in progress, or suspended it? -/
def State.rastersDone (s : State) (part : Nat) : Bool :=
  s.dies.all fun d => d.2.queues.all fun q => q.2.node != part || q.2.drawing.isNone || q.2.suspended.isSome

/-- Steps 1 to 3: activations end; slots and engines stop; walks and raster units stop. Step 4, a new detection, follows. -/
def State.preemptStep (s : State) (part : Nat) : State :=
  match s.haltStep part with
  | 1 => if (s.coreList part).all fun c => (s.core c).activation.isNone then s.haltStages part 2 else s
  | 2 => s.haltStages part 3
  | 3 =>
    if s.rastersDone part then (s.setPart part { (s.part part).begin with quietSince := none }).haltStages part 4 else s
  | _ => s

/-! ## The save area (23 R336) -/

/-- The bytes of a stage's block. -/
def saveBlock : Nat := 0x1800000

/-- The virtual address of a partition's save area. -/
def Partition.saveVa (p : Partition) : Nat := (p.saveBase.setWidth 64 &&& 0x1FFFFFFFFFF0000#64).toNat

/-- Where byte i of a save area comes from: a ULM byte's map address, or none for a byte that only the device reads. -/
def Partition.savedUlm (p : Partition) (i : Nat) : Option Nat :=
  let off := i % saveBlock
  let c := off / 0x44000
  if off < 0x1100000 ∧ off % 0x44000 < 0x40000 then
    some (ulmAddr (coreAt (p.stages.getD (i / saveBlock) 0) (c / 8) (c % 8)) (off % 0x44000))
  else none

/-- The part of a block that only the device reads and a byte of the block lies in: its offset and length. -/
def devicePart (off : Nat) : Option (Nat × Nat) :=
  if off < 0x1100000 then if off % 0x44000 < 0x40000 then none else some (off / 0x44000 * 0x44000 + 0x40000, 0x4000)
  else if off < 0x1300000 then some (off / 0x80000 * 0x80000, 0x80000)
  else if off < 0x1500000 then some (off / 0x100000 * 0x100000, 0x100000)
  else some (0x1500000, 0x300000)

/-- The offset that a record of a damaged part names: where the part of R336's table begins. -/
def partOffset (off : Nat) : Nat :=
  if off < 0x1100000 then off / 0x44000 * 0x44000 else ((devicePart off).map Prod.fst).getD off

/-- Byte k of a device's part of n bytes that begins at byte i of the save area: free, and the CRC-32C of the others last
(log 17). -/
def partByte (seed i n k : Nat) : Byte :=
  if k + 4 < n then Config.saveByte (seed + i + k)
  else
    let crc := crc32c ((List.range (n - 4)).map fun j => Config.saveByte (seed + i + j))
    (bytesOfNat 4 crc.toNat).getD (k + 4 - n) 0#8

/-- Byte i as it is written. -/
def State.saveByteAt (s : State) (p : Partition) (seed i : Nat) : Byte :=
  match p.savedUlm i, devicePart (i % saveBlock) with
  | none, some (a, n) => partByte seed (i / saveBlock * saveBlock + a) n (i % saveBlock - a)
  | some a, _ => s.readByte a
  | none, none => 0#8

/-- The stage whose copy engine moves byte i, and the bytes of its block from there. -/
def Partition.saveRun (p : Partition) (i : Nat) : Nat × Nat := (p.stages.getD (i / saveBlock) 0, saveBlock - i % saveBlock)

/-- The bytes of the save area that one access at a location takes. -/
def Partition.saveChunk (p : Partition) (d : DramAt) : Nat :=
  Nat.min (Nat.min d.run (p.saveRun p.saveDone).2) (d.page - d.phys % d.page)

/-- An access of the save area cannot be made: 0x2B is posted once (28 R403), and the save waits. -/
def State.saveFails (s : State) (part va : Nat) (cause : BitVec 7) : State :=
  if (s.part part).saveFailed then s
  else (s.setPart part { s.part part with saveFailed := true }).postError part
    (dfeRecord Cause.dramTransfer (BitVec.ofNat 64 va) (cause.setWidth 64))

/-- An access of the save area at a virtual address has missed, or cannot be made: it waits. -/
def State.saveStops (s : State) (part va : Nat) (need : Perms) (look : Look) : State :=
  let t := TlbId.copy ((s.part part).saveRun (s.part part).saveDone).1
  match look with
  | .miss => s.startMiss t part va need
  | .cause c =>
    if c = Cause.pageFault then
      (s.setPart part { s.part part with saveWait := some (va / 65536) }).enterFault t part va need (.save part)
    else s.saveFails part va c
  | _ => s

/-- Write the save area from where the partition stands, as far as translation goes. The fuel is the bytes left. -/
def State.saveOn (part seed : Nat) : Nat → State → State
  | 0, s => s
  | n + 1, s =>
    let p := s.part part
    let i := p.saveDone
    if p.stages.length * saveBlock ≤ i then s
    else
      let va := (p.saveVa + i) % 2 ^ 57
      match s.look (.copy (p.saveRun i).1) part va 2#3 with
      | .hit d =>
        let k := p.saveChunk d
        match s.dramWrite unitTask d ((List.range k).map fun j => s.saveByteAt p seed (i + j)) with
        | (.ok _, s) => State.saveOn part seed n (s.setPart part { s.part part with saveDone := i + k, saveFailed := false })
        | (.error c, s) => s.saveFails part va c
      | l => s.saveStops part va 2#3 l

/-- Every resident slot of a partition streams to the wings, as by CTXSV. -/
def State.flushSlots (s : State) (part : Nat) : State :=
  (s.coreList part).foldl (fun s c => (List.range 16).foldl (fun s k =>
    if (s.thread c k).slot.resident then s.streamOut c k else s) s) s

/-- What the save area of a partition holds from now on. -/
def State.toSave (s : State) (part : Nat) : Saved :=
  let stages := (s.part part).stages
  { seed := s.freeIx
    grade := s.grade
    gens := stages.map fun st => (s.stage st).decGen
    engines := stages.map fun st => (st, (s.stage st).engines)
    streams := stages.map fun st => (st, (s.stage st).streams)
    crc := 0#32 }

/-- A save begins: the slots stream to the wings, and misses of the partition are forgotten, since their accesses issue again
on restore. -/
def State.beginSave (s : State) (part : Nat) : State :=
  let s := s.flushSlots part
  let s := { s with reqs := s.reqs.filter fun r =>
    match r.body with
    | .miss _ c _ _ _ => c != part
    | _ => true }
  let v := s.toSave part
  { s with freeIx := s.freeIx + (s.part part).stages.length * saveBlock
           service := { s.service with saved := s.service.saved.set part v } }.haltStages part 5

/-- Pre-emption goes on. Once the partition is found quiescent in step 4 its state is written to the save area, and `pre.stat`
becomes 2. -/
def execPreemptSave (part : Nat) (s : State) : Result :=
  let p := s.part part
  let total := p.stages.length * saveBlock
  .next (if p.state ≠ 1#2 ∨ p.saveWait.isSome then s
    else if s.haltStep part < 4 then s.preemptStep part
    else if s.haltStep part = 4 then if s.detects part then s.beginSave part else s
    else
      let s := State.saveOn part (((s.service.saved.find part).map Saved.seed).getD 0) total s
      if total ≤ (s.part part).saveDone then
        (s.setPart part { s.part part with state := 2#2, saveDone := 0 }).setPreStat part 2#2
      else s)

/-! ## Restore -/

/-- A ULM byte read back; the granule's tag is part of the core state. -/
def State.restoreByte (s : State) (p : Partition) (i : Nat) (b : Byte) : State :=
  match p.savedUlm i with
  | some a => { s with mem := Assoc.put 0#8 s.mem a b }
  | none => s

/-- "save-area integrity" (24 R350): the stage's index and the part's offset, in the error queue and the machine-check
queue. -/
def State.badSave (s : State) (part i : Nat) : State :=
  let r := dfeRecord Cause.saveIntegrity (BitVec.ofNat 64 (i / saveBlock)) (BitVec.ofNat 64 (partOffset (i % saveBlock)))
  ((s.postError part r).machineCheck r).setPart part { s.part part with state := 2#2, saveDone := 0 } |>.setPreStat part 2#2

/-- The CRC of a device's part after byte i of the save area has been read back; none where it does not agree. -/
def checkByte (crc : BitVec 32) (i : Nat) (b : Byte) : Option (BitVec 32) :=
  match devicePart (i % saveBlock) with
  | none => some crc
  | some (a, n) =>
    let k := i % saveBlock - a
    if k + 4 < n then some (crcByte (if k = 0 then 0xFFFFFFFF#32 else crc) b)
    else if (bytesOfNat 4 (~~~crc).toNat).getD (k + 4 - n) 0#8 = b then some crc else none

/-- The CRC after a run of bytes from byte i on, or the byte that it does not agree with. -/
def checkBytes (crc : BitVec 32) (i : Nat) : List Byte → Except Nat (BitVec 32)
  | [] => .ok crc
  | b :: l =>
    match checkByte crc i b with
    | some c => checkBytes c (i + 1) l
    | none => .error i

/-- The CRC of the part being read back. -/
def State.setCrc (s : State) (part : Nat) (crc : BitVec 32) : State :=
  match s.service.saved.find part with
  | some v => { s with service := { s.service with saved := s.service.saved.set part { v with crc := crc } } }
  | none => s

/-- Read the save area back, as far as translation goes; true when all is back. -/
def State.restoreOn (part : Nat) : Nat → State → Bool × State
  | 0, s => (true, s)
  | n + 1, s =>
    let p := s.part part
    let i := p.saveDone
    if p.stages.length * saveBlock ≤ i then (true, s)
    else
      let va := (p.saveVa + i) % 2 ^ 57
      match s.look (.copy (p.saveRun i).1) part va 4#3 with
      | .hit d =>
        let k := p.saveChunk d
        match s.dramRead false d k with
        | (.ok bs, s) =>
          match checkBytes (((s.service.saved.find part).map Saved.crc).getD 0#32) i bs with
          | .error j => (false, s.badSave part j)
          | .ok crc =>
            let s := bs.zipIdx.foldl (fun s e => s.restoreByte p (i + e.2) e.1) (s.setCrc part crc)
            State.restoreOn part n (s.setPart part { s.part part with saveDone := i + k, saveFailed := false })
        | (.error _, s) => (false, s.badSave part i)
      | l => (false, s.saveStops part va 4#3 l)

/-- An atomic at issue that waits for a page or a miss looks up again. -/
def State.wakeAccess (s : State) (core ctx : Nat) (hit : Nat → Bool) : State :=
  let t := s.thread core ctx
  let wake (va : Nat) : State :=
    if t.slot.status = .blocked ∧ hit va then s.setThread core ctx { t with slot := t.slot.wake } else s
  match t.slot.wait with
  | .page va => wake va
  | .miss va => wake va
  | _ => s

/-- A suspended access issues again (25 R366). -/
def Segment.again : Segment → Segment
  | .dram core va len fmt counter data _ => .dram core va len fmt counter data none
  | g => g
def Walk.again (w : Walk) : Walk := { w with suspended := none }

def State.againCore (s : State) (c : Nat) : State :=
  let s := (s.core c).queues.dq.foldl (fun s e => if e.2.suspended.isSome then s.resumeEntry c e.1 e.2 else s) s
  (List.range 17).foldl (fun s k => s.wakeAccess c k fun _ => true) s

def Stream.again (q : Stream) : Stream := { q with segs := q.segs.map Segment.again }
def Command.again (c : Command) : Command := { c with suspended := none }
def Ray.again (r : Ray) : Ray := { r with walk := r.walk.map Walk.again }

def State.againStage (s : State) (st : Nat) : State :=
  let g := s.stage st
  s.setStage st { g with
    streams := g.streams.map (fun e => (e.1, e.2.again)), commands := g.commands.map (fun e => (e.1, e.2.again))
    rays := g.rays.map (fun e => (e.1, e.2.again)) }

/-- What waits on a page outside the partition's own cores and stages: raster queues, and the front end's reads and writes. -/
def RasterQueue.again (part : Nat) (q : RasterQueue) : RasterQueue := if q.node = part then { q with suspended := none } else q
def Die.again (part : Nat) (d : Die) : Die := { d with queues := d.queues.map fun e => (e.1, e.2.again part) }
def Launch.again (l : Launch) : Launch := { l with suspended := none }
def Body.again (part : Nat) : Body → Body
  | .completion p addr v w => .completion p addr v (if p = part then none else w)
  | b => b

def State.againFront (s : State) (part : Nat) : State :=
  let p := s.part part
  let s := s.setPart part { p with store := p.store.map fun e => (e.1, e.2.again) }
  { s with dies := s.dies.map (fun e => (e.1, e.2.again part)), reqs := s.reqs.map fun r => { r with body := r.body.again part } }

/-- Is a save area valid: for the same grade, and the same decode tables (23 R336)? -/
def State.saveValid (s : State) (part : Nat) (v : Saved) : Bool :=
  v.grade == s.grade && v.gens == (s.part part).stages.map fun st => (s.stage st).decGen

/-- The engines and streams come back (13 R268); what else the device saves is left where it stands, since nothing changes it
while the partition is saved. -/
def State.putBack (s : State) (v : Saved) (st : Nat) : State :=
  let g := s.stage st
  s.setStage st { g with
    engines := (v.engines.find st).getD g.engines
    streams := (v.streams.find st).getD g.streams }

/-- Command 10, acted on in state 2: the area must be valid. -/
def State.restore (s : State) (part : Nat) : State :=
  let p := s.part part
  match s.service.saved.find part with
  | some v =>
    if p.state ≠ 2#2 then s
    else if s.saveValid part v then (s.setPart part { p with state := 3#2, saveDone := 0 }).setPreStat part 3#2
    else s.badSave part 0
  | none => s

/-- A restore goes on until everything is back, and ends at 0. -/
def State.restoreStep (s : State) (part : Nat) : State :=
  let p := s.part part
  match State.restoreOn part (p.stages.length * saveBlock) s with
  | (false, s) => s
  | (true, s) =>
    let s := match s.service.saved.find part with
      | some v => p.stages.foldl (fun (s : State) st => s.putBack v st) s
      | none => s
    let s := p.stages.foldl State.againStage ((s.coreList part).foldl State.againCore s)
    let s := { s with service := { s.service with saved := s.service.saved.del part } }.againFront part
    ((s.setPart part { s.part part with state := 0#2, saveDone := 0 }).setPreStat part 0#2).haltStages part 0

def execRestoreCommand (part : Nat) (s : State) : Result :=
  let p := s.part part
  .next (if p.state ≠ 3#2 then s.restore part else if p.saveWait.isSome then s else s.restoreStep part)

/-! ## Reset of a partition (25 R361) -/

/-- The router tables without a context's entries. -/
def State.clearRoutes (s : State) (ctx : Nat) : State :=
  { s with cores := s.cores.map fun e => (e.1, { e.2 with routes := e.2.routes.filter fun r => r.ctx != ctx }) }

/-- The threads and the activation of a core that wait on the pager are discarded, and so are its suspended queue entries. -/
def State.discardCore (s : State) (c : Nat) : State :=
  let q := (s.core c).queues
  let s := s.setQueues c { q with dq := q.dq.filter fun e => e.2.suspended.isNone }
  (List.range 17).foldl (fun s k =>
    let t := s.thread c k
    match t.slot.wait with
    | .page _ =>
      if t.slot.status = .blocked then
        let s := s.setThread c k t.freed
        if k = 16 then s.setCore c { s.core c with activation := none } else s
      else s
    | _ => s) s

/-- A stage's commands and segments that wait on the pager. -/
def Segment.waits : Segment → Bool
  | .dram _ _ _ _ _ _ (some _) => true
  | _ => false

def Stream.discard (q : Stream) : Stream := { q with segs := q.segs.filter fun g => !g.waits }

def State.discardStage (s : State) (st : Nat) : State :=
  let g := s.stage st
  let rays := (g.rays.filter fun e => e.2.walk.any fun w => w.suspended.isSome).map Prod.fst
  rays.foldl (fun s n => s.abortRay st n) (s.setStage st { g with
    commands := g.commands.filter (fun e => e.2.suspended.isNone), streams := g.streams.map fun e => (e.1, e.2.discard) })

/-- The streams that a save area holds. -/
def Saved.discard (v : Saved) : Saved :=
  { v with streams := v.streams.map fun e => (e.1, e.2.map fun q => (q.1, q.2.discard)) }

/-- A raster queue of a context whose record waits. -/
def RasterQueue.discardWait (q : RasterQueue) (ctx : Nat) : RasterQueue :=
  if q.node = ctx ∧ q.suspended.isSome then RasterQueue.idle else q

def Die.discardWait (d : Die) (ctx : Nat) : Die := { d with queues := d.queues.map fun e => (e.1, e.2.discardWait ctx) }

/-- Is a request one that waits on an unanswered record of a context? -/
def Body.waitsOn (ctx : Nat) : Body → Bool
  | .fault _ _ c _ _ _ => c == ctx
  | .pagerPost p _ _ => p == ctx
  | .completion p _ _ (some _) => p == ctx
  | _ => false

/-- Firmware resets a partition: the agents that wait on pager records that were never answered are discarded. -/
def execPartitionReset (part : Nat) (s : State) : Result :=
  let s := { s.clearRoutes part with reqs := s.reqs.filter fun r => !r.body.waitsOn part }
  let s := (s.coreList part).foldl State.discardCore s
  let s := (s.part part).stages.foldl State.discardStage s
  let s : State := { s with dies := s.dies.map (fun e => (e.1, e.2.discardWait part)) }
  let s : State := match s.service.saved.find part with
    | some v => { s with service := { s.service with saved := s.service.saved.set part v.discard } }
    | none => s
  let p := s.part part
  .next (s.setPart part { p with store := p.store.filter (fun e => e.2.suspended.isNone), saveWait := none })

end Sys2Proof.Machine
end

