-- ==== Sys2Proof/Machine/Boundary.lean ====
section
/-!
DEFINITION. Boundary.lean: what comes between two instructions of a context: deferred causes (23 R324), the handler budget
(03 R24), the class-7 causes an instruction can meet (24 R340), and the fetch of the next instruction (08 R126, R127).
-/

namespace Sys2Proof.Machine

/-- A context stands at an instruction boundary: it issues next, or waits at issue (23 R324); a CWAIT whose wait a trap ends
issues again. -/
def Slot.atBoundary (v : Slot) : Bool :=
  match v.status, v.wait with
  | .free, _ => false
  | .ready, _ => true
  | .blocked, .retry => true
  | .blocked, .counter _ _ => true
  | .blocked, .miss _ => true
  | .blocked, .page _ => true
  | .blocked, _ => false

/-- Is a deferred cause to be taken now? While nest is 1 it is held, and a soft error that has been met comes first. -/
def Thread.deferredDue (t : Thread) : Bool :=
  !t.slot.deferred.isEmpty && !t.img.trap.nest && t.slot.atBoundary && t.slot.soft.isNone

/-- The oldest deferred cause is taken; trap.pc is the next instruction (24 R339). A class-7 one goes to firmware. -/
def State.takeDeferred (s : State) (core ctx : Nat) : State :=
  let t := s.thread core ctx
  match t.slot.deferred with
  | [] => s
  | d :: rest =>
    if !t.pendingX 29#5 then
      (s.setThread core ctx { t with slot := { t.slot with deferred := rest } }).takeTrap core ctx d.cause t.img.pc d.addr
        true false
    else s.block core ctx .retry

/-- The cycles an activation has used (03 R24, 23 R326). -/
def State.budgetSpent (s : State) (a : Activation) : Nat :=
  if a.begun ∧ !a.paused then a.spent + (s.cycle - a.since) else a.spent

/-- Has the running activation exceeded its budget, and does it stand at a boundary? -/
def State.budgetDue (s : State) (core : Nat) : Bool :=
  let c := s.core core
  match c.activation with
  | some a =>
    a.begun && !a.paused && c.regs.hndBudget != 0#32 && decide (c.regs.hndBudget.toNat < s.budgetSpent a) &&
      (s.thread core 16).slot.atBoundary && (s.thread core 16).slot.soft.isNone
  | none => false

/-- "handler budget" before the next instruction. -/
def State.takeBudget (s : State) (core : Nat) : State :=
  s.takeTrap core 16 Cause.handlerBudget (s.thread core 16).img.pc
    ((s.core core).regs.hndBudget.setWidth 64) false false

/-- What a soft error raises in the instruction that meets it (24 R350). -/
def Soft.cause : Soft → BitVec 7 × Word
  | .register n => (Cause.softRegister, n.setWidth 64)
  | .ulm off => (Cause.softUlm, off.setWidth 64)

/-- The ULM offset of the first fetched word that user mode may not fetch (08 R127, 06 R78): the second word is fetched only
for a first word of major 31 at a word boundary. -/
def State.fetchWings (s : State) (core : Nat) (pc : Ulm) : Option Nat :=
  let a := pc.toNat / 4 * 4
  let w := s.wordAt core pc
  if 0x38000 ≤ a then some a
  else if a + 4 = 0x38000 ∧ pc.toNat % 4 = 0 ∧ ext 0 2 w = 3#2 ∧ ext 2 5 w = 31#5 then some 0x38000
  else none

/-- A word of major 29 that an entry of the stage's decode table expands (08 R138). -/
def State.extensionAt (s : State) (core : Nat) (pc : Ulm) : Bool :=
  let w := s.wordAt core pc
  pc.toNat % 4 == 0 && ext 0 2 w == 3#2 && ext 2 5 w == 29#5 &&
    (s.stage (stageOf core)).decExt.any fun e => w &&& e.1 == e.2

end Sys2Proof.Machine
end

