-- ==== Sys2Proof/Machine/Arrive.lean ====
section
/-!
DEFINITION. Arrive.lean: values that arrive (09 R149, 10 R177), the system handler of scope misses (07 R112), what comes at
an instruction boundary by itself (23 R324, R326, 24 R350), and the swaps of the shadow contexts (03 R31).
-/

namespace Sys2Proof.Machine

/-- A division's result arrives. -/
def execDivideComplete (id : Nat) (s : State) : Result :=
  .next (match s.req id with
    | some r =>
      match r.body with
      | .divide dst v => if s.mayDeliver dst then s.deliver r dst (bytesOfNat 8 v.toNat) false else s
      | _ => s
    | none => s)

/-- The value of a reply arrives; another core's travels between the two interfaces (27 R393). -/
def State.answered (s : State) (r : Req) : State :=
  match r.body with
  | .reply dst bs tag => (s.carry r.core r.place true bs).deliver r dst bs tag
  | _ => s

/-- The pieces of a vector are delivered together, when the last of them has returned (11 R226, 04 R53). -/
def State.answerGroup (s : State) (g : Nat) : State :=
  let l := s.reqs.filter fun q => q.body.vecGroup == some g
  if l.all Req.isReply then l.foldl (fun s q => s.answered q) s else s

/-- A load's value returns. The timestamp of a snapshot comes when the curtain falls (23 R334). -/
def execLoadReply (id : Nat) (s : State) : Result :=
  .next (match s.req id with
    | some r =>
      match r.body with
      | .reply dst _ _ =>
        if (s.service.curtain.any fun c => c.id == id) ∨ !s.mayDeliver dst then s
        else
          match r.body.vecGroup with
          | some g => s.answerGroup g
          | none => s.answered r
      | _ => s
    | none => s)

/-- The agent number of a core's system handler, beside its contexts 0 to 16. -/
def systemHandler : Nat := 17

/-- Is the system handler of a core still writing a value again? It serves one message at a time. -/
def State.handlerBusy (s : State) (core : Nat) : Bool :=
  s.reqs.any fun r => r.core == core && r.ctx == systemHandler && r.body.isWrite

/-- What the fence that the system handler executes orders before its write: the writes that tasks of its core have issued
before and that can be performed by now (07 R101). -/
def State.handlerWaits (s : State) (core id : Nat) : List Nat :=
  (s.reqs.filter fun r => r.core == core && r.ctx != systemHandler && r.cls == some .w && decide (r.id < id) &&
    s.mayRun r).map Req.id

/-- The bytes of a piece without gaps, if it has none. -/
def wholeBytes (bs : List (Option Byte)) : Option (List Byte) := bs.mapM id

/-- The write of a piece, with gaps or without. -/
def pieceBody (addr : Nat) (bs : List (Option Byte)) (tag : Bool) (pub : Option Nat) (fw : Bool) : Body :=
  match wholeBytes bs with
  | some b => .write addr b tag pub fw
  | none => .patch addr bs pub fw

/-- The system handler writes the value again, unless a later write of the core suppresses it (07 R112). Messages reach it in
the order of these events. -/
def execScopeMiss (id : Nat) (s : State) : Result :=
  .next (match s.req id with
    | some r =>
      match r.body with
      | .scopeMiss addr bs tag pub fw =>
        if s.handlerBusy r.core then s
        else
          let q := (s.core r.core).queues
          let later := q.pubs.any fun e => e.id == pub && e.pieces.any fun p => p.id == id && p.later
          if later then (s.drop id).endPiece r.core pub id
          else s.replace { r with after := s.handlerWaits r.core id, body := pieceBody addr bs tag (some pub) fw }
      | _ => s
    | none => s)

/-! ## Boundaries -/

/-- A deferred cause is taken while its slot is resident (24 R339). -/
def execDeferredTrap (core ctx : Nat) (s : State) : Result :=
  let t := s.thread core ctx
  .next (if t.slot.inCore ctx ∧ !t.slot.held ∧ t.deferredDue then s.takeDeferred core ctx else s)

def execHandlerBudget (core : Nat) (s : State) : Result := .next (if s.budgetDue core then s.takeBudget core else s)

/-- The ready task that the watchdog finds. -/
def State.readyTask (s : State) (core : Nat) : Option Nat :=
  (16 :: List.range 16).find? fun k =>
    (s.thread core k).slot.status == .ready && !(if k = 16 then (s.thread core k).slot.held else s.slotHeld core k)

/-- A core has held a ready task, and issued nothing, for 2^28 cycles. -/
def execWatchdog (core : Nat) (s : State) : Result :=
  let r := (s.core core).regs
  .next (match s.readyTask core with
    | some k =>
      if r.lastIssue + 268435456 ≤ s.cycle ∧ (s.thread core k).slot.soft.isNone ∧ !(⟨s.liveImg core k, (s.thread core k).slot⟩ : Thread).pendingX 29#5 then
        (s.setRegs core { r with lastIssue := s.cycle }).live core k fun t =>
          t.takeTrap core k Cause.watchdog (t.thread core k).img.pc (BitVec.ofNat 64 k) false false
      else s
    | none => s)

/-- Executing an encoding that is not an instruction (08 R134): the current context takes the trap. -/
def execIllegalInstruction : State → Result := finish illegal

/-! ## Swaps (03 R31) -/

/-- May a resident slot leave: have its appends been completed (03 R30)? -/
def State.mayLeave (s : State) (core k : Nat) : Bool :=
  let t := s.thread core k
  t.slot.resident && t.img.appended

/-- Swap a resident slot for the next ready one. -/
def State.swapFor (s : State) (core : Nat) (out : Option Nat) : State :=
  match (s.core core).swap, out, s.readyOut core with
  | none, some k, some into => s.startSwap core (some k) into
  | _, _, _ => s

/-- A resident thread has been blocked for 256 cycles; where both have, the spec does not say which leaves, and the lower slot
does (DESIGN CHOICE, log 73). -/
def execBlockSwap (core : Nat) (s : State) : Result :=
  .next (s.swapFor core ((List.range 16).find? fun k =>
    let v := (s.thread core k).slot
    s.mayLeave core k && v.status == .blocked && decide (v.since + 256 ≤ s.cycle)))

/-- The slot that has been resident longest; of two that became so together the lower (DESIGN CHOICE, log 73). -/
def State.longest (s : State) (core : Nat) : Option Nat :=
  ((List.range 16).filter fun k => (s.thread core k).slot.resident).foldl (fun o k =>
    match o with
    | none => some k
    | some j => if (s.thread core k).slot.residentAt < (s.thread core j).slot.residentAt then some k else some j) none

/-- A thread has been resident for 65,536 cycles. -/
def execQuantumSwap (core : Nat) (s : State) : Result :=
  .next (s.swapFor core ((s.longest core).filter fun k =>
    s.mayLeave core k && decide ((s.thread core k).slot.residentAt + 65536 ≤ s.cycle)))

/-- An image has streamed in. While a shadow context is free, a ready slot is brought in. -/
def execSlotSwapComplete (core : Nat) (s : State) : Result :=
  .next (if (s.core core).swap.isSome then s.endSwap core
    else
      match s.readyOut core with
      | some k => if s.residents core < 2 then s.startSwap core none k else s
      | none => s)

end Sys2Proof.Machine
end

