-- ==== Sys2Proof/Machine/Access.lean ====
section
/-!
DEFINITION. Access.lean: what an access through the map does at its target (06 R80 to R83): register windows, control blocks
and the registers of the engine windows; and where a scoped store leaves its scope (07 R112).
-/

namespace Sys2Proof.Machine

/-! ## Registers of the engine windows -/

/-- `errq.ptr` or `pgq.ptr` written: the producer is RO. -/
def ringWrite (old : BitVec 56) (v : Word) : BitVec 56 := v.extractLsb' 20 36 ++ old.extractLsb' 0 20

/-- A write to the partition's dispatch and quiescence registers and its queues: `v` over the register's value, `w` over
zero. -/
def State.partWrite (s : State) (part off : Nat) (v w : Word) : State :=
  let p := s.part part
  match off with
  | 0x30 => s.setPart part { p with hold := v.extractLsb' 16 16, modeSet := v.getLsbD 0 }
  | 0x38 =>
    let c := w.extractLsb' 0 2
    if c = 1#2 then s.preempt part else if c = 2#2 then s.restore part else s
  | 0x40 => s.setPart part { p with saveBase := v.setWidth 57 }
  | 0x48 => s.setPart part { p with errBase := v.setWidth 61 }
  | 0x50 => s.setPart part { p with errPtr := ringWrite p.errPtr v }
  | 0x58 => (s.setPart part { p with pgBase := v.setWidth 61 }).unstall part
  | 0x60 => (s.setPart part { p with pgPtr := ringWrite p.pgPtr v }).unstall part
  | _ => s

/-- A dword of a scheduler's window written; every other register there is RO. -/
def State.schedWrite (s : State) (st off : Nat) (v w : Word) : State :=
  let g := s.stage st
  let d := dieOfStage st
  match off with
  | 0x00 => s.setStage st { g with keeper := v.setWidth 15 }
  | 0x08 => s.setStage st { g with translation := v.setWidth 23 }
  | 0x20 => s.writeDidt d (v.setWidth 10)
  | 0x28 => s.writeRamp d (v.setWidth 12)
  | off =>
    match s.partOfStage st with
    | some p => s.partWrite p off v w
    | none => s

/-- A dword of a traversal unit's context block written (15 R299). -/
def State.travWrite (s : State) (st off : Nat) (v w : Word) : State :=
  let ctx := off / 32
  match off % 32 with
  | 0 => s.writeSdf st ctx v
  | 8 =>
    let g := s.stage st
    let c := { g.travCtx ctx with misses := v.setWidth 32 }
    s.setStage st { g with trav := Assoc.put TravCtx.reset g.trav ctx c }
  | 16 =>
    let c := w.extractLsb' 0 2
    if c = 1#2 then s.travAbort st ctx else if c = 2#2 then s.travReset st ctx else s
  | _ => s

/-- The pager's wake (25 R360): a single 16-byte write whose reserved bits are zero. -/
def State.wakeWrite (s : State) (st : Nat) (q : Quad) : State :=
  let ctx := (q.extractLsb' 64 8).toNat
  if q.extractLsb' 72 56 = 0#56 ∧ q.extractLsb' 57 6 = 0#6 ∧ q.extractLsb' 0 16 = 0#16 ∧ stageOf (s.rootOf ctx) = st then
    s.pagerWake ctx (q.extractLsb' 16 41).toNat (q.getLsbD 63)
  else s

/-- Bytes written to an engine window, one dword at a time. -/
def State.engineWrite (s : State) (st unit off : Nat) (bs : List (Option Byte)) : State :=
  if unit = 6 ∧ off / 16 = 1 then
    match wholeBytes bs with
    | some b => if off = 0x10 ∧ b.length = 16 then s.wakeWrite st (BitVec.ofNat 128 (natOfBytes b)) else s
    | none => s
  else
    (dwordParts off bs).foldl (fun s d =>
      let v := mergeWord (s.engineWord st unit (d.1 * 8)) d.2
      let w := mergeWord 0#64 d.2
      if unit = 5 then s.travWrite st (d.1 * 8 - 0x100000) v w else if unit = 6 then s.schedWrite st (d.1 * 8) v w else s) s

/-! ## A write through the map (06 R80, R81) -/

/-- ULM bytes with gaps. -/
def State.patchBytes (s : State) (a : Nat) (bs : List (Option Byte)) : State :=
  bs.zipIdx.foldl (fun s e => match e.1 with
    | some b => s.writeBytes (a + e.2) [b]
    | none => s) s

/-- The bytes a register holds, over which a write with gaps is laid. -/
def State.overRead (s : State) (addr : Nat) (bs : List (Option Byte)) : List Byte :=
  (bs.zip (s.mapRead addr bs.length).1).map fun e => e.1.getD e.2

/-- A control block's registers written, one dword at a time (23 R322); for `dq.fault` a byte not written is no 1 to its
valid bit. -/
def State.controlWrite (s : State) (core off : Nat) (bs : List (Option Byte)) (fw : Bool) : State :=
  (dwordParts off bs).foldl (fun s d =>
    s.coreCsrWrite core d.1 (mergeWord (if d.1 = 0x030 then 0#64 else s.coreCsrWord core d.1) d.2) fw) s

/-- A write of bytes, some of which may be left out, performed at its target; `src` is the core it comes from. The tile table is
RO there. -/
def State.mapWrite (s : State) (src : Option Nat) (addr : Nat) (bs : List (Option Byte)) (tag fw : Bool) : State :=
  if bs.all Option.isNone then s
  else
    match windowOf s.grade addr bs.length with
    | .ulm _ _ =>
      match wholeBytes bs with
      | some b => s.writeTagged addr b (tag && bs.length == 16)
      | none => s.patchBytes addr bs
    | .xreg core slot reg byte => s.windowX src core slot reg byte (s.overRead addr bs)
    | .vreg core slot reg byte => s.windowV core slot reg byte (s.overRead addr bs)
    | .tiles _ _ => s
    | .control core off => s.controlWrite core off bs fw
    | .engine st unit off => s.engineWrite st unit off bs
    | .hole => s

/-! ## The scope of a store (07 R112) -/

/-- Does a scoped store of a task leave its scope here? -/
def State.leavesScope (s : State) (r : Req) (pub : Option Nat) : Bool :=
  r.ctx != systemHandler &&
    match pub with
    | none => false
    | some p =>
      match (s.core r.core).queues.pubs.find? fun e => e.id == p with
      | some e => !e.scope.holds r.core r.place
      | none => false

/-- A piece has crossed its scope: the handler's write is performed within 4,096 cycles. -/
def State.setDue (s : State) (core pub id : Nat) : State :=
  let q := (s.core core).queues
  s.setQueues core { q with pubs := q.pubs.map fun e =>
    if e.id = pub then { e with pieces := e.pieces.map fun p => if p.id = id then { p with due := some (s.cycle + 4096) } else p }
    else e }

/-- A write has been performed: the piece of its store is done with, or the system handler will publish it again. -/
def State.written (s : State) (r : Req) (addr : Nat) (bs : List (Option Byte)) (tag : Bool) (pub : Option Nat) (fw : Bool) :
    State :=
  let t := (s.carry r.core r.place false (bs.map fun b => b.getD 0#8)).mapWrite (some r.core) addr bs tag fw
  let t := if r.ctx = systemHandler then t else t.unpend r.core r.ctx r.id
  match pub with
  | none => t.drop r.id
  | some p =>
    if s.leavesScope r pub then
      (t.replace { r with ctx := systemHandler, after := [], body := .scopeMiss addr bs tag p fw }).setDue r.core p r.id
    else (t.drop r.id).endPiece r.core p r.id

/-- Is a store held back until a gather has read its index list (10 R188)? -/
def State.storeHeld (s : State) (r : Req) : Bool :=
  r.body.isWrite && r.body.extent.any fun e => s.listHeld e.1 e.2 (some r.id)

/-- A read or write reaches its target's window; a granule's tag goes with the value only where it has G = 1 (04 R50). -/
def execMapAccess (id : Nat) (s : State) : Result :=
  .next (match s.req id with
    | some r =>
      if !s.mayRun r ∨ s.storeHeld r then s
      else
        match r.body with
        | .read addr len tags dst =>
          let v := s.mapRead addr len
          s.replace { r with body := .reply dst v.1 (tags && v.2 && Quad.hasG (BitVec.ofNat 128 (natOfBytes v.1))) }
        | .write addr bs tag pub fw => s.written r addr (bs.map some) tag pub fw
        | .patch addr bs pub fw => s.written r addr bs false pub fw
        | _ => s
    | none => s)

/-- A write of 64 bits to a register of the map that has no row of its own (00 R5). -/
def execRegisterWrite (addr value : Nat) (s : State) : Result :=
  .next (s.mapWrite none addr ((bytesOfNat 8 value).map some) false false)

end Sys2Proof.Machine
end

