-- ==== Sys2Proof/Machine/CapOps.lean ====
section
/-!
DEFINITION. CapOps.lean: the capability instructions of major 4 (09 R152 to R160).
-/

namespace Sys2Proof.Machine

/-- A capability source: tagged, of a kind the instruction accepts (09 R152); the address recorded is 0 (24 R341). -/
def capSource (r : XReg) (accepts : Bool) : Op Unit := do
  require r.tag Cause.untagged 0#64
  require accepts Cause.capKind 0#64

/-- Kinds 00 and 01. -/
def isLinearOrMesh (q : Quad) : Bool := Quad.kind q == 0#2 || Quad.kind q == 1#2

/-- `csetb` (09 R154): the narrowed capability, if the check passes. -/
def narrow (q : Quad) (n : Nat) : Option Quad :=
  if Quad.kind q = 1#2 then
    let c := Mesh.ofQuad q
    if c.off.toNat + n ≤ c.sliceBase.toNat + c.sliceLen.toNat ∧ c.sliceBase ≤ c.off ∧ n < 2 ^ 18 then
      some ({ c with sliceBase := c.off, sliceLen := BitVec.ofNat 18 n }).toQuad
    else none
  else if n < 2 ^ 31 ∧ (Quad.offset q).toNat + n ≤ (Quad.length q).toNat then
    some (mkLinear (Quad.perms q) (Quad.cursor q) (BitVec.ofNat 31 n) 0#32)
  else none

def execCsetb (d : XName) (a b : Src) : State → Result := plain (do
  destReady d
  let r ← readSrc2 a b
  capSource r.1 (isLinearOrMesh r.1.val)
  match narrow r.1.val (Quad.low r.2.val).toNat with
  | some q => writeX d q true
  | none => trap Cause.capBounds 0#64)

/-- The masking of `cperm` (09 R155): L, S, X, A and C by s2[5:1]; G keeps its value. -/
def maskPerms (q : Quad) (m : Word) : Quad :=
  (q.extractLsb' 126 2 : BitVec 2) ++ (Quad.perms q &&& (m.extractLsb' 0 6 ||| 1#6)) ++ (q.extractLsb' 0 120 : BitVec 120)

/-- `cperm`: of a source that cannot be sealed for two reasons, its kind comes before its lack of X (DESIGN CHOICE, log 83). -/
def execCperm (d : XName) (a b : Src) : State → Result := plain (do
  destReady d
  let r ← readSrc2 a b
  capSource r.1 (isLinearOrMesh r.1.val)
  let m := Quad.low r.2.val
  let q := maskPerms r.1.val m
  if m.getLsbD 6 then do
    require (Quad.kind q == 0#2) Cause.capKind 0#64
    require (Quad.hasX q) Cause.capPermission 0#64
    writeX d (2#2 ++ (q.extractLsb' 0 126 : BitVec 126)) true
  else writeX d q true)

/-- `cinc` and `cinci` (09 R156). -/
def cincOp (d : XName) (r : XReg) (step : Int) : Op Unit := do
  capSource r (isLinearOrMesh r.val)
  writeX d (capStep r.val step) true

def execCinc (d : XName) (a b : Src) : State → Result := plain (do
  destReady d
  let r ← readSrc2 a b
  cincOp d r.1 (Quad.low r.2.val).toInt)

def execCinci (d : XName) (a : Src) (i : BitVec 11) : State → Result := plain (do
  destReady d
  let r ← readSrc a
  cincOp d r i.toInt)

/-- The checks of `cmesh` (09 R157). -/
def cmeshFits (q : Quad) (r : Word) : Bool :=
  let cols := if r.extractLsb' 14 7 = 0#7 then 128 else (r.extractLsb' 14 7).toNat
  decide ((Quad.base q).toNat + (Quad.length q).toNat ≤ 0x40000) && decide ((Quad.length q).toNat ≤ 0x3FFFF) &&
    decide ((r.extractLsb' 0 7).toNat + cols ≤ 128) && decide ((r.extractLsb' 7 7).toNat + (r.extractLsb' 21 7).toNat ≤ 80)

/-- The mesh capability `cmesh` builds. The base 0x40000, which a length of 0 lets pass, becomes slice base 0 (DESIGN CHOICE, log 83). -/
def cmeshOf (q : Quad) (r : Word) : Mesh where
  perms := Quad.perms q
  baseCol := r.extractLsb' 0 7
  baseRow := r.extractLsb' 7 7
  sliceBase := (Quad.base q).setWidth 18
  sliceLen := (Quad.length q).setWidth 18
  cols := r.extractLsb' 14 7
  rows := r.extractLsb' 21 7
  col := r.extractLsb' 0 7
  row := r.extractLsb' 7 7
  off := (Quad.cursor q).setWidth 18

def execCmesh (d : XName) (a b : Src) : State → Result := plain (do
  destReady d
  let r ← readSrc2 a b
  capSource r.1 (Quad.kind r.1.val == 0#2 && !Quad.hasG r.1.val)
  let m := Quad.low r.2.val
  require (cmeshFits r.1.val m) Cause.capBounds 0#64
  writeX d (cmeshOf r.1.val m).toQuad true)

/-- The permissions that `ctest`'s s2[37:32] names, bit 0 ignored (09 R158). -/
def capNeed (m : Word) : Need :=
  ⟨m.getLsbD 37, m.getLsbD 36, m.getLsbD 35, m.getLsbD 34, m.getLsbD 33⟩

def execCtest (d : XName) (a b : Src) : State → Result := plain (do
  destReady d
  let r ← readSrc2 a b
  let m := Quad.low r.2.val
  match derefFail r.1 (capNeed m) 0 (m.setWidth 32).toNat with
  | some (k, _) => writeWord d (BitVec.ofNat 64 k)
  | none => writeWord d 0#64)

def execCclr (d : XName) (a : Src) : State → Result := plain (do
  destReady d
  let r ← readSrc a
  writeX d r.val false)

/-- The field of `cget` (09 R160). -/
def cgetField (r : XReg) (f : Nat) : Word :=
  let q := r.val
  let k := Quad.kind q
  let linear := k = 0#2 ∨ k = 2#2
  let c := Mesh.ofQuad q
  let lin (v : Word) : Word := if linear then v else 0#64
  let mesh (v : Word) : Word := if k = 1#2 then v else 0#64
  match f with
  | 0 => k.setWidth 64
  | 1 => if k = 3#2 then 0#64 else (Quad.perms q).setWidth 64
  | 2 => lin ((Quad.base q).setWidth 64)
  | 3 => lin ((Quad.length q).setWidth 64)
  | 4 => lin ((Quad.offset q).setWidth 64)
  | 5 => lin ((Quad.cursor q).setWidth 64)
  | 6 => mesh (c.baseCol.setWidth 64)
  | 7 => mesh (c.baseRow.setWidth 64)
  | 8 => mesh (c.sliceBase.setWidth 64)
  | 9 => mesh (c.sliceLen.setWidth 64)
  | 10 => mesh (c.cols.setWidth 64)
  | 11 => mesh (c.rows.setWidth 64)
  | 12 => mesh (c.col.setWidth 64)
  | 13 => mesh (c.row.setWidth 64)
  | 14 => mesh (c.off.setWidth 64)
  | 15 => boolWord r.tag
  | _ => 0#64

def execCget (d : XName) (i : BitVec 11) (a : Src) : State → Result := plain (do
  legal (decide (i.toNat < 16))
  destReady d
  let r ← readSrc a
  writeWord d (cgetField r i.toNat))

end Sys2Proof.Machine
end

