-- ==== Sys2Proof/Machine/Fp.lean ====
section
/-!
DEFINITION. Fp.lean: scalar floating point, majors 16 and 17 (11 R210 to R218).
-/

namespace Sys2Proof.Machine

/-- The format of a type code (R210). -/
def fmtOfType (t : BitVec 2) : Fmt :=
  if t = 0#2 then .bf16 else if t = 1#2 then .fp16 else if t = 2#2 then .fp32 else .fp64

/-- The bits of a format in a register: the low ones (R212). -/
def fpBits (f : Fmt) (r : XReg) : Nat := r.val.toNat % 2 ^ f.width

/-- Write a floating-point result: the upper bits are zero and the tag is clear. -/
def writeFp (d : XName) (v : Nat) : Op Unit := writeX d (BitVec.ofNat 128 v) false

/-- A result with its flags: an enabled exception traps before d is written. -/
def writeFlagged (d : XName) (r : Nat × FpFlags) : Op Unit := do
  raiseFlags r.2
  writeFp d r.1

/-! ## Major 16 -/

/-- Two sources, a rounding mode and a result. -/
def fpOp2 (op : Fmt → Rnd → Nat → Nat → Nat × FpFlags) (d : XName) (a b : Src) (t : BitVec 2) (r : BitVec 3) :
    State → Result := plain (do
  let mode ← roundingMode r
  let f := fmtOfType t
  destReady d
  let v ← readSrc2 a b
  writeFlagged d (op f mode (fpBits f v.1) (fpBits f v.2)))

def execFadd (d : XName) (a b : Src) (t : BitVec 2) (r : BitVec 3) : State → Result := fpOp2 Fmt.add d a b t r
def execFsub (d : XName) (a b : Src) (t : BitVec 2) (r : BitVec 3) : State → Result := fpOp2 Fmt.sub d a b t r
def execFmul (d : XName) (a b : Src) (t : BitVec 2) (r : BitVec 3) : State → Result := fpOp2 Fmt.mul d a b t r
def execFdiv (d : XName) (a b : Src) (t : BitVec 2) (r : BitVec 3) : State → Result := fpOp2 Fmt.div d a b t r

def execFsqrt (d : XName) (a : Src) (t : BitVec 2) (r : BitVec 3) : State → Result := plain (do
  let mode ← roundingMode r
  let f := fmtOfType t
  destReady d
  let v ← readSrc a
  writeFlagged d (f.sqrt mode (fpBits f v)))

/-- `fma` and `fnma` read d as their addend, as `sel` does. -/
def fmaOp (minus : Bool) (d : XName) (a b : Src) (t : BitVec 2) (r : BitVec 3) : State → Result := plain (do
  let mode ← roundingMode r
  let f := fmtOfType t
  let c ← readDest d
  let v ← readSrc2 a b
  writeFlagged d (f.fma mode minus (fpBits f v.1) (fpBits f v.2) (fpBits f c)))

def execFma (d : XName) (a b : Src) (t : BitVec 2) (r : BitVec 3) : State → Result := fmaOp false d a b t r
def execFnma (d : XName) (a b : Src) (t : BitVec 2) (r : BitVec 3) : State → Result := fmaOp true d a b t r

/-- Two sources without rounding. -/
def fpPlain2 (op : Fmt → Nat → Nat → Nat × FpFlags) (d : XName) (a b : Src) (t : BitVec 2) : State → Result := plain (do
  let f := fmtOfType t
  destReady d
  let v ← readSrc2 a b
  writeFlagged d (op f (fpBits f v.1) (fpBits f v.2)))

def execFmin (d : XName) (a b : Src) (t : BitVec 2) : State → Result := fpPlain2 (fun f => f.minMax false) d a b t
def execFmax (d : XName) (a b : Src) (t : BitVec 2) : State → Result := fpPlain2 (fun f => f.minMax true) d a b t
def execFcmp (d : XName) (a b : Src) (t : BitVec 2) : State → Result := fpPlain2 Fmt.compare d a b t

def execFclass (d : XName) (a : Src) (t : BitVec 2) : State → Result := plain (do
  let f := fmtOfType t
  destReady d
  let v ← readSrc a
  writeFp d (f.classOf (fpBits f v)))

/-- The first operand with the sign that a function of both signs gives. -/
def withSign (g : Bool → Bool → Bool) (f : Fmt) (a b : Nat) : Nat × FpFlags :=
  let top := f.eb + f.mb
  (a % 2 ^ top + (if g (a.testBit top) (b.testBit top) then 2 ^ top else 0), 0#5)

def execFmvxJ (d : XName) (a b : Src) (t : BitVec 2) : State → Result := fpPlain2 (withSign fun _ y => y) d a b t
def execFmvxN (d : XName) (a b : Src) (t : BitVec 2) : State → Result := fpPlain2 (withSign fun _ y => !y) d a b t
def execFmvxX (d : XName) (a b : Src) (t : BitVec 2) : State → Result := fpPlain2 (withSign fun x y => x != y) d a b t

/-! ## Major 17 (R217, R218) -/

/-- The floating-point format of a conversion code, and whether it saturates where R69 has both forms. -/
def fpCode (c : BitVec 3) : Fmt × Bool :=
  match c.toNat with
  | 0 => (.fp64, false)
  | 1 => (.fp32, false)
  | 2 => (.fp16, false)
  | 3 => (.bf16, false)
  | 4 => (.e4m3, true)
  | 5 => (.e4m3, false)
  | 6 => (.e5m2, false)
  | _ => (.e5m2, true)

/-- The width and signedness of an integer code. -/
def intCode (c : BitVec 3) : Nat × Bool := (64 / 2 ^ (c.toNat % 4), decide (c.toNat < 4))

/-- One conversion of a source that has been read. -/
def convertOp (d : XName) (a : Src) (r : BitVec 3) (f : Rnd → Nat → Nat × FpFlags) : State → Result := plain (do
  let mode ← roundingMode r
  destReady d
  let v ← readSrc a
  writeFlagged d (f mode v.val.toNat))

/-- A conversion from a floating-point format: a saturating or non-saturating variant names no source (R217). -/
def fromFp (d : XName) (a : Src) (q r : BitVec 3) (f : Rnd → FVal → Nat × FpFlags) : State → Result :=
  if q = 5#3 ∨ q = 7#3 then plain illegal else convertOp d a r fun mode v => f mode ((fpCode q).1.unpack v)

def execFcvt (d : XName) (a : Src) (p q r : BitVec 3) : State → Result := fromFp d a q r fun mode v =>
  (fpCode p).1.round (fpCode p).2 mode v

def execFcvtInt (d : XName) (a : Src) (p q r : BitVec 3) : State → Result := fromFp d a q r fun mode v =>
  let w := intCode p
  let o := v.toInt w.1 w.2 mode
  (intBits w.1 o.1, o.2.1)

def execFcvtf (d : XName) (a : Src) (p q r : BitVec 3) : State → Result := convertOp d a r fun mode v =>
  let w := intCode q
  (fpCode p).1.round (fpCode p).2 mode (FVal.ofInt (intOfBits w.1 w.2 v))

end Sys2Proof.Machine
end

