-- ==== Sys2Proof/Machine/LinkDown.lean ====
section
/-!
DEFINITION. LinkDown.lean: the end of a link's retraining, and what a link that goes down leaves behind (28 R400, R403).
-/

namespace Sys2Proof.Machine

/-- A write that waits for a link as the link goes down: it may have been performed, its reply lost (28 R403). -/
def State.maybeDone (s : State) (look : Look) (port : Nat) (f : State → DramAt → State) : State :=
  match look with
  | .hit p =>
    if p.tier ≠ 0 ∧ (if p.tier = 1 then 16 else p.port) = port then
      let t := { s with freeIx := s.freeIx + 1 }
      if Config.lostReply s.freeIx then f t p else t
    else s
  | _ => s

/-- The write that a queue entry has in flight. -/
def State.loseEntry (s up : State) (port core : Nat) (e : DqEntry) : State :=
  if e.kind = .push ∧ up.entryOpen core e then
    s.maybeDone (up.nextAccess core e) port fun s p =>
      (s.moveEntry core e p (Nat.min (Nat.min p.run (e.contiguous e.done)) (p.page - p.phys % p.page))).2
  else s

/-- The write that a copy command has in flight. -/
def State.loseCommand (s up : State) (port st : Nat) (c : Command) : State :=
  if c.kind = 4 ∧ c.source = .moving ∧ c.suspended.isNone ∧ up.commandOpen st c then
    let a := c.at c.done
    s.maybeDone (up.look (.copy st) (up.contextOfStage st) a.1 2#3) port fun s p =>
      (s.dramWrite unitTask p ((c.data.drop c.done).take (Nat.min (Nat.min p.run a.2) (p.page - p.phys % p.page)))).2
  else s

/-- The record that a partition's queue has in flight (28 R396). -/
def State.loseRecord (s up : State) (port part : Nat) (base : BitVec 61) (ptr : BitVec 56) (r : CauseRecord) : State :=
  s.maybeDone (up.look (.copy ((s.part part).stages.headD 0)) part (ringSlot base ptr) 2#3) port fun s p =>
    (s.dramWrite unitTask p r.bytes).2

/-- The write that a save has in flight (23 R336). -/
def State.loseSave (s up : State) (port part : Nat) : State :=
  let p := s.part part
  if p.state = 1#2 ∧ s.haltStep part = 5 ∧ p.saveWait.isNone then
    let seed := ((s.service.saved.find part).map Saved.seed).getD 0
    s.maybeDone (up.look (.copy (p.saveRun p.saveDone).1) part ((p.saveVa + p.saveDone) % 2 ^ 57) 2#3) port fun s d =>
      (s.dramWrite unitTask d ((List.range (p.saveChunk d)).map fun j => s.saveByteAt p seed (p.saveDone + j))).2
  else s

/-- The writes that a link going down leaves without a reply, of the queue entries, the copy commands, the saves, the atomics, the
completions and the queues of records: the link has still been up for them. Their issuers receive 0x2B whether they were performed
or not. -/
def State.loseReplies (s : State) (port : Nat) : State :=
  let up := s.setLink port { s.link port with state := 2#2 }
  let s := s.cores.foldl (fun s c => c.2.queues.dq.foldl (fun s e => s.loseEntry up port c.1 e.2) s) s
  let s := s.stages.foldl (fun s g => g.2.commands.foldl (fun s e => s.loseCommand up port g.1 e.2) s) s
  let s := s.parts.foldl (fun s e => s.loseSave up port e.1) s
  s.reqs.foldl (fun s r =>
    match r.body with
    | .post part c =>
      if up.nextRecord r then s.loseRecord up port part (s.part part).errBase (s.part part).errPtr c else s
    | .pagerPost part c _ =>
      if up.nextRecord r then s.loseRecord up port part (s.part part).pgBase (s.part part).pgPtr c else s
    | .completion part addr v none =>
      s.maybeDone (up.look (.copy ((s.part part).stages.headD 0)) part addr 2#3) port fun s p =>
        (s.dramWrite unitTask p (bytesOfNat 8 v.toNat)).2
    | .atomic a =>
      match a.phys with
      | some p => if up.mayRun r ∧ up.atomicOpen r p then
          s.maybeDone (.hit p) port fun s p => (s.dramModify r.task p a.bytes a.write).2 else s
      | none => s
    | _ => s) s

/-- Retraining ends at one of the widths, or the link goes down and firmware receives 0x73. -/
def execLinkRetrainEnd (port : Nat) (s : State) : Result :=
  let l := s.link port
  .next (if port ≤ 16 ∧ l.state = 1#2 then
      let k := (Config.trained s.freeIx).toNat
      let s := { s with freeIx := s.freeIx + 1 }
      match (s.grade.widths port)[k]? with
      | some n => s.setLink port { l with state := 2#2, lanes := BitVec.ofNat 8 n }
      | none => ((s.loseReplies port).setLink port { l with state := 0#2, lanes := 0#8 }).machineCheck
          ⟨Cause.linkDown, 0x3FFF#14, 3#2, 0#11, 0#64, BitVec.ofNat 64 port, 0#64⟩
    else s)

end Sys2Proof.Machine
end

