-- ==== Sys2Proof/Machine/Sbp.lean ====
section
/-!
DEFINITION. Sbp.lean: SBPLD and SBPRD (13 R269 to R271).
-/

namespace Sys2Proof.Machine

/-- A hold of the current context on an engine, where it stands. -/
def Hold.mine (h : Hold) (s : State) (e : Nat) : Bool :=
  h.engine == e && h.core == s.cur.1 && h.ctx == s.cur.2 && h.epoch == s.curThread.slot.epoch && h.pc == s.img.pc

/-- The holds in force of a stage without the current context's on an engine. -/
def State.unhold (s : State) (st e : Nat) : State :=
  s.setStage st { s.stage st with holds := (s.holds st).filter fun h => !h.mine s e }

/-- May the holder act: is the engine idle, and for an SBPLD, a task with the barrier flag, has every earlier task of its
submitter ended, an SBPLD that waits before it among them? -/
def State.holdOpen (s : State) (st : Nat) (h : Hold) : Bool :=
  ((s.stage st).engine h.engine).running.isNone &&
    (!h.load || (((s.stage st).tasks.all fun t => !(h.waitsFor t)) &&
      ((s.holds st).takeWhile fun f => f != h).all fun f => !(f.load && f.core == h.core)))

/-- Wait for an engine: the first attempt leaves a hold, and later ones look whether it may act. The bytes are those an
SBPLD read at its first attempt. -/
def holdEngine (e : Nat) (load : Bool) (data : List Byte) : Op (List Byte) := do
  let s ← get
  let st := stageOf s.cur.1
  match (s.holds st).find? fun h => h.mine s e with
  | some h => do
    if s.holdOpen st h then do
      set (s.unhold st e)
      pure h.data
    else stop .wait
  | none => do
    let g := s.stage st
    let h : Hold := ⟨e, s.cur.1, s.cur.2, s.curThread.slot.epoch, s.img.pc, g.seq, load, data⟩
    let s := s.setStage st { g with holds := s.holds st ++ [h] }
    if s.holdOpen st h then do
      set (s.unhold st e)
      pure data
    else stop (.waitWith s .retry)

/-- The block at a capability's cursor (13 R270, steps 2 and 3). -/
def readBlock (r : XReg) (slot : Nat) : Op (List Byte) := do
  requireLocal r 0
  match ← accessCheck r needL 0 16 16 with
  | .map _ => pure []
  | .local o => do
    awaitLocal .m o 16
    let s ← get
    match blockBytes (s.readByte (ulmAddr s.cur.1 o)).toNat with
    | none => trap Cause.sbpTable (BitVec.ofNat 64 slot)
    | some n => do
      let _ ← accessCheck r needL 0 n 16
      awaitLocal .m o n
      pure ((← get).readBytes (ulmAddr s.cur.1 o) n)

def execSbpld (a b : Src) : State → Result := plain (do
  let r ← readSrc2 a b
  let v := Quad.low r.2.val
  require (v.extractLsb' 5 59 == 0#59) Cause.engineOperand 0#64
  let e := (v.extractLsb' 0 2).toNat
  let slot := (v.extractLsb' 2 3).toNat
  let s ← get
  let st := stageOf s.cur.1
  unitRequest
  let held := (s.holds st).find? fun h => h.mine s e
  let data ← match held with
    | some h => pure h.data
    | none => readBlock r.1 slot
  require (s.grade.hasEngine st e) Cause.engineOperand 0#64
  let bytes ← holdEngine e true data
  match decodeBlock bytes with
  | none => trap Cause.sbpTable (BitVec.ofNat 64 slot)
  | some k => do
    let s ← get
    let g := (s.stage st).engine e
    set (s.setEngine st e { g with slots := g.slots.set slot ⟨k, true⟩ }))

/-- A running-sum register (13 R265): 48 bits, sign-extended. -/
def Lane.sum (l : Lane) (k : Nat) : Word := (BitVec.ofInt 48 (l.sums.getD k 0)).signExtend 64

/-- A difference register (13 R266); index 127 is the top code. -/
def Lane.diff (l : Lane) (k : Nat) : Word :=
  if k = 127 then BitVec.ofInt 64 l.top else BitVec.ofNat 64 (l.diffs.getD k 0)

/-- The lane status (13 R267). -/
def Lane.status (l : Lane) : Word :=
  0#24 ++ BitVec.ofBool l.valid ++ BitVec.ofNat 9 l.group ++ BitVec.ofNat 7 l.column ++ BitVec.ofNat 7 l.row ++
    BitVec.ofInt 16 l.unit

/-- The slot status (13 R267). -/
def slotStatus (t : Option TableSlot) : Word :=
  match t with
  | none => 0#64
  | some x => 0#54 ++ BitVec.ofBool x.pinned ++ 1#1 ++ x.block.kind

/-- What SBPRD reads of an engine. -/
def Engine.sbpWord (e : Engine) (select k lane : Nat) : Word :=
  let l := if lane = 0 then e.lanes.1 else e.lanes.2
  match select with
  | 0 => l.sum k
  | 1 => l.diff k
  | 2 => slotStatus (e.slots.find k)
  | _ => l.status

def execSbprd (d : XName) (a : Src) : State → Result := plain (do
  destReady d
  let r ← readSrc a
  let v := Quad.low r.val
  let select := (v.extractLsb' 10 2).toNat
  let k := (v.extractLsb' 3 7).toNat
  let lane := (v.extractLsb' 2 1).toNat
  let e := (v.extractLsb' 0 2).toNat
  let s ← get
  let st := stageOf s.cur.1
  require (v.extractLsb' 12 52 == 0#52 && !(select == 2 && (decide (7 < k) || lane != 0)) && !(select == 3 && k != 0) &&
    s.grade.hasEngine st e) Cause.engineOperand 0#64
  unitRequest
  let _ ← holdEngine e false []
  let s ← get
  writeWord d (((s.stage st).engine e).sbpWord select k lane))

end Sys2Proof.Machine
end

