-- ==== Sys2Proof/Machine/Stream.lean ====
section
/-!
DEFINITION. Stream.lean: the stream generators (10 R183 to R186, 04 R54) and the fetching of their elements.
-/

namespace Sys2Proof.Machine

/-- Does a register name a stream register, `x24` to `x27`? -/
def isStreamReg (d : XName) : Bool := decide (24 ≤ d.toNat) && decide (d.toNat ≤ 27)

/-- The stores that the core's tasks issued and that are not performed, those of reserved elements among them (04 R54). -/
def State.openStores (s : State) (core : Nat) : List Nat :=
  (s.reqs.filter fun r => r.core == core && decide (r.ctx ≤ 16)).flatMap fun r =>
    (if r.cls == some .w then [r.id] else []) ++ (r.body.element.map Element.id).toList

/-- `sbind` and `sbind.a` (10 R183). -/
def bindOp (append : Bool) (d : XName) (g : BitVec 2) (a : Src) (e : BitVec 2) : Op Unit := do
  legal (isStreamReg d)
  let r ← readSrc a
  let s ← get
  let free := (s.img.genOf d).isNone && !(s.img.gens[g.toFin]).bound
  require free Cause.streamBind (d.setWidth 64)
  destReady d
  let s ← get
  let reg : BitVec 2 := BitVec.ofNat 2 (d.toNat - 24)
  let wait := if append then [] else s.openStores s.cur.1
  setGen g.toFin ⟨true, append, e, reg, r.val, r.tag, 0#32, [], wait⟩

def execSbind (d : XName) (g : BitVec 2) (a : Src) (e : BitVec 2) : State → Result := plain (bindOp false d g a e)
def execSbindA (d : XName) (g : BitVec 2) (a : Src) (e : BitVec 2) : State → Result := plain (bindOp true d g a e)

def execSunbind (d : XName) : State → Result := plain (do
  legal (isStreamReg d)
  let img := (← get).img
  match img.genOf d with
  | none => pure ()
  | some i => do
    await (!(img.gens[i]).append || (img.gens[i]).pending.isEmpty)
    setGen i Gen.free
    setX d 0#128 false)

/-- The status word of a generator (10 R186). -/
def Gen.status (g : Gen) : Word :=
  if g.bound then
    0#23 ++ 1#1 ++ g.pos ++ BitVec.ofNat 3 (if g.append then g.pending.length else g.fetched.length) ++ g.esize ++
      BitVec.ofBool g.append ++ g.reg
  else 0#64

def execSstat (d : XName) (g : BitVec 2) : State → Result := plain (do
  destReady d
  let v := ((← get).img.gens[g.toFin]).status
  writeWord d v)

/-- May an element be read at its place? The task's accesses in flight to its bytes come before it (07 R103), and so do those by
local offsets where it lies in the own ULM (R102). -/
def State.mayFetch (s : State) (n : Nat) : Target → Bool
  | .local off => s.nearEvents.isEmpty && (s.sameLocation (ulmAddr s.cur.1 off) n).isEmpty
  | .map a => (s.sameLocation a n).isEmpty

/-- A reading generator fetches its next element (10 R184), if it may and the element passes its checks: at most four are
held ahead of the pops. The element is read as it stands now, and popped so: a fence that names r holds back the elements
not yet fetched, and has none fetched again (DESIGN CHOICE, log 74). -/
def State.fetchElement (s : State) (core ctx : Nat) (i : Fin 4) : State :=
  let t := { s with cur := (core, ctx) }
  let g := t.img.gens[i]
  let v := t.curThread.slot
  if g.bound ∧ !g.append ∧ v.inCore ctx ∧ v.status ≠ .free ∧ !(ctx ≠ 16 ∧ s.slotHeld core ctx) ∧ g.fetched.length < 4 ∧
      g.pending.all (fun r => !s.inFlight r) ∧ (t.fenceWaits .r).isEmpty then
    match elementCheck g (g.pos + BitVec.ofNat 32 (g.fetched.length * g.size)) t with
    | .ok (target, _) =>
      if !t.mayFetch g.size target then s
      else
        let bs := match target with
          | .local off => s.readBytes (ulmAddr core off) g.size
          | .map a => (s.mapRead a g.size).1
        let t := match target with
          | .local _ => t
          | .map a => t.carry core (placeOf a) true bs
        { t.setImg { t.img with gens := t.img.gens.set i { g with fetched := g.fetched ++ [natOfBytes bs] } } with cur := s.cur }
    | .error _ => s
  else s

def execStreamFetch (core ctx gen : Nat) (s : State) : Result :=
  .next (if h : gen < 4 then s.fetchElement core ctx ⟨gen, h⟩ else s)

end Sys2Proof.Machine
end

