-- ==== Sys2Proof/Machine/VecInt.lean ====
section
/-!
DEFINITION. VecInt.lean: vector registers as elements (11 R219), the integer operations of major 18 (R220), the
floating-point ones of major 19 (R221, R222), and the cross-lane and mask operations of major 21 (R227 to R229).
-/

namespace Sys2Proof.Machine

/-! ## Elements -/

/-- Bytes of an element, from esize. -/
def ebytes (e : BitVec 2) : Nat := 2 ^ e.toNat

/-- Element i of w bits. -/
def lane (w : Nat) (v : Vec) (i : Nat) : Nat := v.toNat / 2 ^ (w * i) % 2 ^ w

/-- A number with the listed elements of w bits, the first lowest. -/
def packLanes (w : Nat) : List Nat → Nat
  | [] => 0
  | x :: xs => x % 2 ^ w + 2 ^ w * packLanes w xs

/-- The vector whose element i of w bits is f i. -/
def vecOf (w : Nat) (f : Nat → Nat) : Vec := BitVec.ofNat 512 (packLanes w ((List.range (512 / w)).map f))

/-- Is element i of e bytes active under a mask (04 R55)? -/
def active (k : Word) (e i : Nat) : Bool := k.getLsbD (i * e)

/-- The vector whose active elements of e bytes are f i, and whose others are kept. -/
def vecMerge (e : Nat) (k : Word) (old : Vec) (f : Nat → Nat) : Vec :=
  vecOf (8 * e) fun i => if active k e i then f i else lane (8 * e) old i

/-- Two vector sources, the mask and the old destination. -/
def readVec2 (d a b : VName) (w : Bool) (m : MName) : Op (Vec × Vec × Vec × Word) := do
  let old ← destVec d
  let x ← readVec a w
  let y ← readVec b w
  return (x, y, old, (← get).img.mask m)

def readVec1 (d a : VName) (w : Bool) (m : MName) : Op (Vec × Vec × Word) := do
  let old ← destVec d
  let x ← readVec a w
  return (x, old, (← get).img.mask m)

/-! ## Major 18 (R220) -/

/-- An element operation: the width in bits, a, b and the old element. -/
abbrev LaneOp := Nat → Nat → Nat → Nat → Nat

def vecOp2 (f : LaneOp) (d a b : VName) (w : Bool) (m : MName) (e : BitVec 2) : State → Result := plain (do
  let (x, y, old, k) ← readVec2 d a b w m
  let n := 8 * ebytes e
  writeVec d (vecMerge (ebytes e) k old fun i => f n (lane n x i) (lane n y i) (lane n old i)))

def vecOp1 (f : Nat → Nat → Nat) (d a : VName) (w : Bool) (m : MName) (e : BitVec 2) : State → Result := plain (do
  let (x, old, k) ← readVec1 d a w m
  let n := 8 * ebytes e
  writeVec d (vecMerge (ebytes e) k old fun i => f n (lane n x i)))

/-- A signed element. -/
def sLane (n x : Nat) : Int := intOfBits n true x

/-- A result saturated to the signed range. -/
def saturate (n : Nat) (v : Int) : Nat := intBits n (Max.max (intRange n true).1 (Min.min (intRange n true).2 v))

def execVadd (d a b : VName) (w : Bool) (m : MName) (e : BitVec 2) : State → Result :=
  vecOp2 (fun _ x y _ => x + y) d a b w m e
def execVsub (d a b : VName) (w : Bool) (m : MName) (e : BitVec 2) : State → Result :=
  vecOp2 (fun n x y _ => x + 2 ^ n - y) d a b w m e
def execVmul (d a b : VName) (w : Bool) (m : MName) (e : BitVec 2) : State → Result :=
  vecOp2 (fun _ x y _ => x * y) d a b w m e
def execVmulh (d a b : VName) (w : Bool) (m : MName) (e : BitVec 2) : State → Result :=
  vecOp2 (fun n x y _ => intBits n ((sLane n x * sLane n y).fdiv (2 ^ n : Nat))) d a b w m e
def execVmin (d a b : VName) (w : Bool) (m : MName) (e : BitVec 2) : State → Result :=
  vecOp2 (fun n x y _ => if sLane n x ≤ sLane n y then x else y) d a b w m e
def execVmax (d a b : VName) (w : Bool) (m : MName) (e : BitVec 2) : State → Result :=
  vecOp2 (fun n x y _ => if sLane n x ≤ sLane n y then y else x) d a b w m e
def execVminu (d a b : VName) (w : Bool) (m : MName) (e : BitVec 2) : State → Result :=
  vecOp2 (fun _ x y _ => Nat.min x y) d a b w m e
def execVmaxu (d a b : VName) (w : Bool) (m : MName) (e : BitVec 2) : State → Result :=
  vecOp2 (fun _ x y _ => Nat.max x y) d a b w m e
def execVand (d a b : VName) (w : Bool) (m : MName) (e : BitVec 2) : State → Result :=
  vecOp2 (fun _ x y _ => x &&& y) d a b w m e
def execVor (d a b : VName) (w : Bool) (m : MName) (e : BitVec 2) : State → Result :=
  vecOp2 (fun _ x y _ => x ||| y) d a b w m e
def execVxor (d a b : VName) (w : Bool) (m : MName) (e : BitVec 2) : State → Result :=
  vecOp2 (fun _ x y _ => x ^^^ y) d a b w m e
def execVshl (d a b : VName) (w : Bool) (m : MName) (e : BitVec 2) : State → Result :=
  vecOp2 (fun n x y _ => x * 2 ^ (y % n)) d a b w m e
def execVshr (d a b : VName) (w : Bool) (m : MName) (e : BitVec 2) : State → Result :=
  vecOp2 (fun n x y _ => x / 2 ^ (y % n)) d a b w m e
def execVsra (d a b : VName) (w : Bool) (m : MName) (e : BitVec 2) : State → Result :=
  vecOp2 (fun n x y _ => intBits n ((sLane n x).fdiv (2 ^ (y % n) : Nat))) d a b w m e
def execVfshl (d a b : VName) (w : Bool) (m : MName) (e : BitVec 2) : State → Result :=
  vecOp2 (fun n x y old => (old * 2 ^ n + x) * 2 ^ (y % n) / 2 ^ n) d a b w m e
def execVfshr (d a b : VName) (w : Bool) (m : MName) (e : BitVec 2) : State → Result :=
  vecOp2 (fun n x y old => (x * 2 ^ n + old) / 2 ^ (y % n)) d a b w m e
def execVsadd (d a b : VName) (w : Bool) (m : MName) (e : BitVec 2) : State → Result :=
  vecOp2 (fun n x y _ => saturate n (sLane n x + sLane n y)) d a b w m e
def execVssub (d a b : VName) (w : Bool) (m : MName) (e : BitVec 2) : State → Result :=
  vecOp2 (fun n x y _ => saturate n (sLane n x - sLane n y)) d a b w m e

def execVclz (d a : VName) (w : Bool) (m : MName) (e : BitVec 2) : State → Result :=
  vecOp1 (fun n x => if x = 0 then n else n - 1 - Nat.log2 x) d a w m e
def execVpopc (d a : VName) (w : Bool) (m : MName) (e : BitVec 2) : State → Result :=
  vecOp1 (fun n x => ((List.range n).filter x.testBit).length) d a w m e
def execVabs (d a : VName) (w : Bool) (m : MName) (e : BitVec 2) : State → Result :=
  vecOp1 (fun n x => (sLane n x).natAbs) d a w m e

/-! ## Major 19 (R221, R222) -/

/-- The results of the active elements and the flags they raise together. -/
def lanesOr (n : Nat) (act : Nat → Bool) (f : Nat → Nat × FpFlags) : FpFlags :=
  (List.range n).foldl (fun fl i => if act i then fl ||| (f i).2 else fl) 0#5

/-- A floating-point operation of the active elements; an enabled exception of any traps with none written. -/
def vecFpWrite (d : VName) (t : BitVec 2) (k : Word) (old : Vec) (f : Nat → Nat × FpFlags) : Op Unit := do
  let e := (fmtOfType t).width / 8
  raiseFlags (lanesOr (64 / e) (active k e) f)
  writeVec d (vecMerge e k old fun i => (f i).1)

def vecFp2 (rm : Option (BitVec 3)) (f : Fmt → Rnd → Nat → Nat → Nat → Nat × FpFlags) (d a b : VName) (w : Bool) (m : MName)
    (t : BitVec 2) : State → Result := plain (do
  let mode ← match rm with
    | some r => roundingMode r
    | none => pure .rne
  let (x, y, old, k) ← readVec2 d a b w m
  let g := fmtOfType t
  vecFpWrite d t k old fun i => f g mode (lane g.width x i) (lane g.width y i) (lane g.width old i))

def vecFp1 (r : BitVec 3) (f : Fmt → Rnd → Nat → Nat × FpFlags) (d a : VName) (w : Bool) (m : MName) (t : BitVec 2) :
    State → Result := plain (do
  let mode ← roundingMode r
  let (x, old, k) ← readVec1 d a w m
  let g := fmtOfType t
  vecFpWrite d t k old fun i => f g mode (lane g.width x i))

def execVfadd (d a b : VName) (w : Bool) (r : BitVec 3) (m : MName) (e : BitVec 2) : State → Result :=
  vecFp2 (some r) (fun f mode x y _ => f.add mode x y) d a b w m e
def execVfsub (d a b : VName) (w : Bool) (r : BitVec 3) (m : MName) (e : BitVec 2) : State → Result :=
  vecFp2 (some r) (fun f mode x y _ => f.sub mode x y) d a b w m e
def execVfmul (d a b : VName) (w : Bool) (r : BitVec 3) (m : MName) (e : BitVec 2) : State → Result :=
  vecFp2 (some r) (fun f mode x y _ => f.mul mode x y) d a b w m e
def execVfma (d a b : VName) (w : Bool) (r : BitVec 3) (m : MName) (e : BitVec 2) : State → Result :=
  vecFp2 (some r) (fun f mode x y old => f.fma mode false x y old) d a b w m e
def execVfmin (d a b : VName) (w : Bool) (m : MName) (e : BitVec 2) : State → Result :=
  vecFp2 none (fun f _ x y _ => f.minMax false x y) d a b w m e
def execVfmax (d a b : VName) (w : Bool) (m : MName) (e : BitVec 2) : State → Result :=
  vecFp2 none (fun f _ x y _ => f.minMax true x y) d a b w m e
def execVfexpn (d a : VName) (w : Bool) (r : BitVec 3) (m : MName) (e : BitVec 2) : State → Result :=
  vecFp1 r (fun f mode x => f.expNeg mode x) d a w m e
def execVfrcp (d a : VName) (w : Bool) (r : BitVec 3) (m : MName) (e : BitVec 2) : State → Result :=
  vecFp1 r (fun f mode x => f.div mode (f.round false .rne (.num false 1 0)).1 x) d a w m e

/-- The source of a vector conversion (R222): its width in bytes and the value of its bits; an FP source comes first. -/
def cvtSource (c : VName) : Option (Nat × (Nat → FVal)) :=
  match c.toNat with
  | 0 => some (2, Fmt.unpack .bf16)
  | 1 => some (2, Fmt.unpack .fp16)
  | 2 => some (4, Fmt.unpack .fp32)
  | 3 => some (8, Fmt.unpack .fp64)
  | 4 => some (1, Fmt.unpack .e4m3)
  | 5 => some (1, Fmt.unpack .e5m2)
  | 14 => none
  | 15 => none
  | c =>
    let i := c - 6
    let n := 2 ^ (i % 4)
    some (n, fun x => FVal.ofInt (intOfBits (8 * n) (decide (i < 4)) x))

/-- A vector conversion: k elements, and zero above them. -/
def vecCvt (fpOnly : Bool) (n : Nat) (f : Rnd → FVal → Nat × FpFlags) (d a s : VName) (w : Bool) (r : BitVec 3) (m : MName) :
    State → Result := plain (do
  legal (!fpOnly || decide (s.toNat < 6))
  match cvtSource s with
  | none => illegal
  | some (ws, val) => do
    let mode ← roundingMode r
    let (x, old, k) ← readVec1 d a w m
    let count := 64 / Nat.max ws n
    let res (i : Nat) := f mode (val (lane (8 * ws) x i))
    raiseFlags (lanesOr count (active k n) res)
    writeVec d (vecOf (8 * n) fun i =>
      if count ≤ i then 0 else if active k n i then (res i).1 else lane (8 * n) old i))

def execVfcvt (d a s : VName) (w : Bool) (r : BitVec 3) (m : MName) (e : BitVec 2) : State → Result :=
  vecCvt false ((fmtOfType e).width / 8) (fun mode v => (fmtOfType e).round false mode v) d a s w r m

def execVfcvtFp8 (d a s : VName) (w : Bool) (r : BitVec 3) (m : MName) (e : BitVec 2) : State → Result :=
  vecCvt true 1 (fun mode v => (if e.toNat < 2 then Fmt.e4m3 else .e5m2).round (e == 0#2 || e == 3#2) mode v) d a s w r m

/-- A conversion into an integer of an element's width. -/
def cvtInt (e : BitVec 2) (signed : Bool) (mode : Rnd) (v : FVal) : Nat × FpFlags :=
  let o := v.toInt (8 * ebytes e) signed mode
  (intBits (8 * ebytes e) o.1, o.2.1)

def execVfcvtInt (d a s : VName) (w : Bool) (r : BitVec 3) (m : MName) (e : BitVec 2) : State → Result :=
  vecCvt true (ebytes e) (cvtInt e true) d a s w r m

def execVfcvtUint (d a s : VName) (w : Bool) (r : BitVec 3) (m : MName) (e : BitVec 2) : State → Result :=
  vecCvt true (ebytes e) (cvtInt e false) d a s w r m

/-! ## Major 21, format V (R227 to R229) -/

def execVperm (d a b : VName) (w : Bool) (m : MName) (e : BitVec 2) : State → Result := plain (do
  let (x, y, old, k) ← readVec2 d a b w m
  let n := 8 * ebytes e
  writeVec d (vecMerge (ebytes e) k old fun i => lane n x (lane n y i % (512 / n))))

/-- A reduction: element 0 takes the fold of the active elements, and every other is zero. -/
def reduceOp (f : Nat → List Nat → Nat) (d a : VName) (w : Bool) (m : MName) (e : BitVec 2) : State → Result := plain (do
  let (x, _, k) ← readVec1 d a w m
  let n := 8 * ebytes e
  let xs := ((List.range (512 / n)).filter (active k (ebytes e))).map (lane n x)
  writeVec d (BitVec.ofNat 512 (f n xs % 2 ^ n)))

def execVredadd (d a : VName) (w : Bool) (m : MName) (e : BitVec 2) : State → Result :=
  reduceOp (fun _ xs => xs.foldl (· + ·) 0) d a w m e
def execVredmax (d a : VName) (w : Bool) (m : MName) (e : BitVec 2) : State → Result :=
  reduceOp (fun n xs => intBits n (xs.foldl (fun v x => Max.max v (sLane n x)) (intRange n true).1)) d a w m e
def execVredmin (d a : VName) (w : Bool) (m : MName) (e : BitVec 2) : State → Result :=
  reduceOp (fun n xs => intBits n (xs.foldl (fun v x => Min.min v (sLane n x)) (intRange n true).2)) d a w m e

/-- `vgmax` and `vgmin`: each active element receives the fold of the active elements of its group. -/
def groupFold (f : Nat → Nat → Nat) (d : VName) (g : BitVec 2) (a : VName) (w : Bool) (m : MName) (e : BitVec 2) :
    State → Result := plain (do
  let size := 2 ^ (g.toNat + 1)
  let n := 8 * ebytes e
  legal (decide (size ≤ 512 / n))
  let (x, old, k) ← readVec1 d a w m
  writeVec d (vecMerge (ebytes e) k old fun i =>
    ((List.range size).map (i / size * size + ·)).foldl
      (fun v j => if active k (ebytes e) j then f v (lane n x j) else v) (lane n x i)))

def execVgmax (d : VName) (g : BitVec 2) (a : VName) (w : Bool) (m : MName) (e : BitVec 2) : State → Result :=
  groupFold Nat.max d g a w m e
def execVgmin (d : VName) (g : BitVec 2) (a : VName) (w : Bool) (m : MName) (e : BitVec 2) : State → Result :=
  groupFold Nat.min d g a w m e

def execVscan (d a : VName) (w : Bool) (m : MName) (e : BitVec 2) : State → Result := plain (do
  let (x, old, k) ← readVec1 d a w m
  let n := 8 * ebytes e
  writeVec d (vecMerge (ebytes e) k old fun i =>
    (List.range (i + 1)).foldl (fun v j => if active k (ebytes e) j then v + lane n x j else v) 0))

def execVsel (d a b : VName) (w : Bool) (m : MName) (e : BitVec 2) : State → Result := plain (do
  let (x, y, _, k) ← readVec2 d a b w m
  let n := 8 * ebytes e
  writeVec d (vecOf n fun i => if active k (ebytes e) i then lane n x i else lane n y i))

/-- A mask with the e bits of each active element set to a result, the others kept. -/
def maskMerge (e : Nat) (k old : Word) (f : Nat → Bool) : Word :=
  BitVec.ofNat 64 (packLanes 1 ((List.range 64).map fun j =>
    if active k e (j / e) then (f (j / e)).toNat else (old.getLsbD j).toNat))

/-- The integer conditions of `vcmp` over elements of n bits. -/
def intCond (c : BitVec 3) (n x y : Nat) : Bool :=
  match c.toNat with
  | 0 => x == y
  | 1 => x != y
  | 2 => decide (sLane n x < sLane n y)
  | 3 => !decide (sLane n x < sLane n y)
  | 4 => decide (x < y)
  | _ => !decide (x < y)

def execVcmp (d c : BitVec 3) (a b : VName) (w : Bool) (m : MName) (e : BitVec 2) : State → Result := plain (do
  let n := 8 * ebytes e
  legal (decide (c.toNat < 6) || decide (2 ≤ e.toNat))
  let x ← readVec a w
  let y ← readVec b w
  let img := (← get).img
  let k := img.mask m
  if c.toNat < 6 then writeMask d (maskMerge (ebytes e) k (img.mask d) fun i => intCond c n (lane n x i) (lane n y i))
  else do
    let f := fmtOfType e
    let res (i : Nat) := f.compare (lane n x i) (lane n y i)
    raiseFlags (lanesOr (512 / n) (active k (ebytes e)) res)
    let want := if c = 6#3 then 1 else 2
    writeMask d (maskMerge (ebytes e) k (img.mask d) fun i => (res i).1 == want))

/-- The mask instructions. -/
def maskOp2 (f : Word → Word → Word) (d a b : BitVec 3) : State → Result := plain (do
  let img := (← get).img
  writeMask d (f (img.mask a) (img.mask b)))

def execMand (d a b : BitVec 3) : State → Result := maskOp2 (· &&& ·) d a b
def execMor (d a b : BitVec 3) : State → Result := maskOp2 (· ||| ·) d a b
def execMxor (d a b : BitVec 3) : State → Result := maskOp2 (· ^^^ ·) d a b
def execMnot (d a : BitVec 3) : State → Result := maskOp2 (fun x _ => ~~~x) d a a

/-! ## Major 21, format VX (R227) -/

def execVslide (d : VName) (a : Src) (s : VName) (w : Bool) (e : BitVec 2) (m : MName) : State → Result := plain (do
  let _ ← destVec d
  let r ← readSrc a
  let (x, old, k) ← readVec1 d s w m
  let n := 8 * ebytes e
  let by' := (Quad.low r.val).toInt
  writeVec d (vecMerge (ebytes e) k old fun i =>
    let j := (i : Int) + by'
    if 0 ≤ j ∧ j < (512 / n : Nat) then lane n x j.toNat else 0))

def execVmovx (d : XName) (l : BitVec 4) (s : VName) (w : Bool) (e : BitVec 2) : State → Result := plain (do
  let n := 8 * ebytes e
  legal (decide (l.toNat < 512 / n))
  destReady d
  let x ← readVec s w
  writeX d (BitVec.ofNat 128 (lane n x l.toNat)) false)

def execVins (d : VName) (l : BitVec 4) (a : Src) (e : BitVec 2) : State → Result := plain (do
  let n := 8 * ebytes e
  legal (decide (l.toNat < 512 / n))
  let old ← destVec d
  let r ← readSrc a
  writeVec d (vecOf n fun i => if i = l.toNat then r.val.toNat else lane n old i))

/-- A mask named by a 4-bit field; 8 and above name none. -/
def maskNamed (v : VName) : Op MName := do
  legal (decide (v.toNat < 8))
  pure (v.setWidth 3)

def execMpop (d : XName) (s : VName) : State → Result := plain (do
  let k ← maskNamed s
  destReady d
  let v := (← get).img.mask k
  writeWord d (BitVec.ofNat 64 ((List.range 64).filter v.getLsbD).length))

def execMfirst (d : XName) (s : VName) : State → Result := plain (do
  let k ← maskNamed s
  destReady d
  let v := (← get).img.mask k
  writeWord d (BitVec.ofNat 64 (((List.range 64).find? v.getLsbD).getD 64)))

def execMgen (d : VName) (a : Src) : State → Result := plain (do
  let k ← maskNamed d
  let r ← readSrc a
  writeMask k (Quad.low r.val))

end Sys2Proof.Machine
end

