-- ==== Sys2Proof/Machine/VecMem.lean ====
section
/-!
DEFINITION. VecMem.lean: the vector memory accesses of major 20 (11 R224 to R226).
-/

namespace Sys2Proof.Machine

/-- The single-copy atomic pieces of n bytes at a map address, each with its length: the aligned 16 bytes of VLD and VST, or
the single bytes of VLDU and VSTU (06 R83). -/
def mapPieces (bytewise : Bool) (a n : Nat) : List (Nat × Nat) :=
  if bytewise then (List.range n).map fun j => (a + j, 1)
  else (granules a n).map fun g =>
    let lo := Nat.max a (g * 16)
    (lo, Nat.min (a + n) (g * 16 + 16) - lo)

/-- The byte of a vector that a mask of byte bits selects, and the bytes of a vector. -/
def vecBytes (v : Vec) : List Byte := bytesOfNat 64 v.toNat

/-- A mask over bytes from one over elements of e bytes. -/
def byteMask (k : Word) (e : Nat) : Nat → Bool := fun j => active k e (j / e)

/-- Issue the reads of a vector's late pieces: each has its map address, its length, and where its bytes go. -/
def readPieces (d : VName) (l : List (Nat × Nat × List (Nat × Nat × Nat))) : Op Unit := do
  let l := l.filter fun p => !p.2.2.isEmpty
  if l.isEmpty then pure ()
  else do
    markVec d
    let group := (← get).nextId
    l.forM fun p => do
      let _ ← pushMap .r p.1 p.2.1 [] (.read p.1 p.2.1 false (.v d group p.2.2))
      pure ()

/-- The pieces of a contiguous read at a map address, byte j going to byte j of the register where selected. -/
def loadPieces (bytewise : Bool) (a n : Nat) (sel : Nat → Bool) : List (Nat × Nat × List (Nat × Nat × Nat)) :=
  (mapPieces bytewise a n).map fun p =>
    (p.1, p.2, ((List.range p.2).filter fun j => sel (p.1 - a + j)).map fun j => (j, p.1 - a + j, 1))

/-- Load n bytes: those selected replace bytes of d. -/
def vecLoad (bytewise : Bool) (d : VName) (old : Vec) (t : Target) (n : Nat) (sel : Nat → Bool) : Op Unit := do
  match t with
  | .local o => do
    awaitLocal .r o n
    let s ← get
    let bs := s.readBytes (ulmAddr s.cur.1 o) n
    writeVec d (vecOf 8 fun j => if j < n ∧ sel j then (bs.getD j 0#8).toNat else lane 8 old j)
  | .map a => readPieces d (loadPieces bytewise a n sel)

/-- Store the selected of n bytes of a vector. -/
def vecStore (bytewise : Bool) (v : Vec) (t : Target) (n : Nat) (sel : Nat → Bool) : Op Unit := do
  let bs := vecBytes v
  match t with
  | .local o => do
    awaitRoom
    awaitLocal .w o n
    let s ← get
    set (((List.range n).filter sel).foldl (fun s j => s.writeBytes (ulmAddr s.cur.1 (o + j)) [bs.getD j 0#8]) s)
  | .map a => do
    let ps := (mapPieces bytewise a n).filter fun p => (List.range p.2).any fun j => sel (p.1 - a + j)
    if ps.isEmpty then pure ()
    else do
      let pub ← publish
      ps.forM fun p => do
        let part := (List.range p.2).map fun j => if sel (p.1 - a + j) then some (bs.getD (p.1 - a + j) 0#8) else none
        requireBank p.1 part
        let fw := (← get).img.mode == .firmware
        let id ← pushMap .w p.1 p.2 [] (.patch p.1 part pub fw)
        publishPiece pub id p.1 p.2

/-- Advance the cursor by the mode (R224). -/
def vecStep (a : Src) (r : XReg) (m : BitVec 2) (k : Word) : Op Unit :=
  match m.toNat with
  | 0 => pure ()
  | 1 => stepBase a.reg r 64
  | _ => stepBase a.reg r ((List.range 64).filter k.getLsbD).length

def execVld (d : VName) (a : Src) (e : BitVec 2) (m : BitVec 2) (k : MName) : State → Result := plain (do
  legal (decide (m.toNat < 2))
  let old ← destVec d
  let r ← readSrc a
  let mask := (← get).img.mask k
  let t ← accessCheck r needL 0 64 64
  vecLoad false d old t 64 (byteMask mask (ebytes e))
  vecStep a r m mask)

def execVst (a : Src) (s : VName) (w : Bool) (e : BitVec 2) (m : BitVec 2) (k : MName) : State → Result := plain (do
  legal (decide (m.toNat < 2))
  let r ← readSrc a
  let v ← readVec s w
  let mask := (← get).img.mask k
  let t ← accessCheck r needS 0 64 64
  vecStore false v t 64 (byteMask mask (ebytes e))
  vecStep a r m mask)

/-- The bytes from the cursor to the highest set bit of a mask; 0 for a zero mask. -/
def maskSpan (k : Word) : Nat := if k = 0#64 then 0 else Nat.log2 k.toNat + 1

/-- Checks 1 to 3 of R49 alone, for a zero mask. -/
def firstChecks (r : XReg) (n : Need) : Op Unit := do
  match derefFail r n 0 0 with
  | some (i, c) => if i ≤ 3 then trap c 0#64 else pure ()
  | none => pure ()

def execVldu (d : VName) (a : Src) (m : BitVec 2) (k : MName) : State → Result := plain (do
  legal (decide (m.toNat < 3))
  let old ← destVec d
  let r ← readSrc a
  let mask := (← get).img.mask k
  let n := maskSpan mask
  if n = 0 then firstChecks r needL
  else do
    let t ← accessCheck r needL 0 n 1
    vecLoad true d old t n mask.getLsbD
  vecStep a r m mask)

def execVstu (a : Src) (s : VName) (w : Bool) (m : BitVec 2) (k : MName) : State → Result := plain (do
  legal (decide (m.toNat < 3))
  let r ← readSrc a
  let v ← readVec s w
  let mask := (← get).img.mask k
  let n := maskSpan mask
  if n = 0 then firstChecks r needS
  else do
    let t ← accessCheck r needS 0 n 1
    vecStore true v t n mask.getLsbD
  vecStep a r m mask)

def execVbcast (d : VName) (a : Src) (e : BitVec 2) (i : BitVec 4) : State → Result := plain (do
  let _ ← destVec d
  let r ← readSrc a
  let n := ebytes e
  match ← accessCheck r needL (i.toNat * n : Nat) n n with
  | .local o => do
    awaitLocal .r o n
    let s ← get
    let v := s.readNat (ulmAddr s.cur.1 o) n
    writeVec d (vecOf (8 * n) fun _ => v)
  | .map a => readPieces d [(a, n, (List.range (64 / n)).map fun j => (0, j * n, n))])

/-- An operation whose traps record an element's byte offset from the cursor. -/
def atOffset {α : Type} (off : Nat) (op : Op α) : Op α := fun s =>
  match op s with
  | .error (.trap c _) => .error (.trap c (BitVec.ofNat 64 off))
  | r => r

/-- The targets of the active elements, checked in increasing order (R225). The operand must be linear, whatever the mask
(R418); the first active element's byte offset is what that check records (24 R341). -/
def elementTargets (r : XReg) (need : Need) (idx : Vec) (k : Word) (e : Nat) : Op (List (Nat × Target)) := do
  let elems := ((List.range (64 / e)).filter (active k e)).map fun i => (i, lane (8 * e) idx i * e)
  let first : Word := BitVec.ofNat 64 ((elems.head?.map Prod.snd).getD 0)
  require r.tag Cause.untagged first
  require (Quad.kind r.val == 0#2) Cause.capKind first
  elems.mapM fun p => do
    let t ← atOffset p.2 (accessCheck r need p.2 e e)
    pure (p.1, t)

/-- `vgath`: vd is empty until every element has arrived. A local element is read at issue (07 R102). -/
def execVgath (d : VName) (a : Src) (s : VName) (w : Bool) (e : BitVec 2) (k : MName) : State → Result := plain (do
  let _ ← destVec d
  let r ← readSrc a
  let idx ← readVec s w
  let mask := (← get).img.mask k
  let n := ebytes e
  let ts ← elementTargets r needL idx mask n
  ts.forM fun p =>
    match p.2 with
    | .local o => awaitLocal .r o n
    | .map _ => pure ()
  let st ← get
  let here := ts.filterMap fun p =>
    match p.2 with
    | .local o => some (p.1, st.readBytes (ulmAddr st.cur.1 o) n)
    | .map _ => none
  let there := ts.filterMap fun p =>
    match p.2 with
    | .local _ => none
    | .map m => some (m, n, [(0, p.1 * n, n)])
  if here.isEmpty then readPieces d there
  else do
    markVec d
    let bytes := here.flatMap Prod.snd
    let _ ← pushReq none (.core st.cur.1) []
      (.reply (.v d st.nextId (here.zipIdx.map fun p => (p.2 * n, p.1.1 * n, n))) bytes false)
    pure ())

/-- `vscat`: the elements are performed in increasing i; vd is read as data and has no trap-if-empty form (R219, R224). -/
def execVscat (d : VName) (a : Src) (s : VName) (w : Bool) (e : BitVec 2) (k : MName) : State → Result := plain (do
  let r ← readSrc a
  let idx ← readVec s w
  let v ← readVec d false
  let mask := (← get).img.mask k
  let n := ebytes e
  let ts ← elementTargets r needS idx mask n
  let far := ts.any fun p =>
    match p.2 with
    | .local _ => false
    | .map _ => true
  let pub ← if far then publish else do
    awaitRoom
    pure none
  let _ ← ts.foldlM (fun (before : List Nat) p => do
    let bs := bytesOfNat n (lane (8 * n) v p.1)
    match p.2 with
    | .local o => do
      awaitLocal .w o n
      let s ← get
      set (s.writeBytes (ulmAddr s.cur.1 o) bs)
      pure before
    | .map m => do
      let id ← pushStore pub m bs false before
      pure [id]) ([] : List Nat))

end Sys2Proof.Machine
end

