-- ==== Sys2Proof/Machine/Wake.lean ====
section
/-!
DEFINITION. Wake.lean: how a wake, a denied page or a translation timeout reaches each agent (25 R356, R362, R363).
-/

namespace Sys2Proof.Machine

/-- The TLB an agent looks up in. -/
def State.tlbOf (s : State) : Agent → TlbId
  | .entry c _ => .core c
  | .atomic c _ => .core c
  | .command st _ => .copy st
  | .segment st _ => .copy st
  | .walk st _ => .trav st
  | .raster d u _ => .raster d u
  | .header p _ => .copy ((s.part p).stages.headD 0)
  | .completion p _ => .copy ((s.part p).stages.headD 0)
  | .save p => .copy ((s.part p).saveRun (s.part p).saveDone).1

/-! ## The unresolvable path (25 R363) -/

/-- A thread's atomic traps with the cause; not while x29 has a pending producer (23 R325). -/
def State.failAtomic (s : State) (core ctx va : Nat) (cause : BitVec 7) : State :=
  if (⟨s.liveImg core ctx, (s.thread core ctx).slot⟩ : Thread).pendingX 29#5 then s
  else s.trapHeld core ctx cause (BitVec.ofNat 64 va)

/-- The task that claims a stream faults with its segment (12 R241, log 79). -/
def State.failSegment (s : State) (st stream : Nat) (cause : BitVec 7) : State :=
  let q := (s.stage st).stream stream
  match q.claim.bind (s.runningTask st), q.segs with
  | some t, .dram core va len _ _ data _ :: _ => s.failExtent st t stream core (extentAt va len data.length).1 cause
  | _, _ => s

/-- A completion that is not performed (26 R368). -/
def State.failCompletion (s : State) (part id : Nat) (cause : BitVec 7) : State :=
  match s.req id with
  | some q =>
    match q.body with
    | .completion _ addr _ _ =>
      (s.drop id).postError part (dfeRecord Cause.dramTransfer (BitVec.ofNat 64 addr) (cause.setWidth 64))
    | _ => s
  | none => s

/-- An agent that waits on a page takes the unresolvable path. -/
def State.failAgent (s : State) (a : Agent) (page : Nat) (cause : BitVec 7) : State :=
  match a with
  | .entry core i =>
    match (s.core core).queues.dq.find i with
    | some e => s.abandonEntry core i e cause
    | none => s
  | .atomic core ctx =>
    match (s.thread core ctx).slot.wait with
    | .page va => s.failAtomic core ctx va cause
    | .miss va => s.failAtomic core ctx va cause
    | _ => s
  | .command st i =>
    match (s.stage st).commands.find i with
    | some c => s.failDram st i c (c.at (if c.kind = 4 then c.done else c.data.length)).1 cause
    | none => s
  | .segment st stream => s.failSegment st stream cause
  | .walk st n =>
    match ((s.stage st).ray n).walk.bind Walk.current with
    | some e => s.badRecord st n (e.recordAt (if e.addr / 65536 = page then e.addr else page * 65536))
    | none => s
  | .raster d u q =>
    match ((s.die d).queue u q).records with
    | (seq, _) :: _ => (s.setRaster d u q { (s.die d).queue u q with suspended := none }).badBatch d u q seq
    | [] => s
  | .header p i =>
    match (s.part p).store.find i with
    | some l => s.refuseLaunch p i l Cause.dramTransfer (page * 65536) cause.toNat
    | none => s
  | .completion p id => s.failCompletion p id cause
  | .save p =>
    let v := s.part p
    (s.setPart p { v with saveWait := none }).saveFails p ((v.saveVa + v.saveDone) % 2 ^ 57) cause

/-! ## Wakes (25 R362, R363) -/

/-- Does a thread wait for the wake of a page? -/
def Slot.waitsPage (v : Slot) (page : Nat) : Bool :=
  match v.wait with
  | .page va => v.status == .blocked && va / 65536 == page
  | _ => false

/-- Does a thread wait on the miss of a page? -/
def Slot.waitsMiss (v : Slot) (page : Nat) : Bool :=
  match v.wait with
  | .miss va => v.status == .blocked && va / 65536 == page
  | _ => false

/-- Does an agent wait on a page? -/
def State.suspendedOn (s : State) (a : Agent) (page : Nat) : Bool :=
  match a with
  | .entry core i => (s.core core).queues.dq.find i |>.any fun e => e.suspended.map (· / 65536) == some page
  | .atomic core ctx => (s.thread core ctx).slot.waitsPage page
  | .command st i => (s.stage st).commands.find i |>.any fun c => c.suspended == some page
  | .segment st stream =>
    match ((s.stage st).stream stream).segs with
    | .dram _ _ _ _ _ _ (some p) :: _ => p == page
    | _ => false
  | .walk st n => ((s.stage st).ray n).walk.any fun w => w.suspended == some page
  | .raster d u q => ((s.die d).queue u q).suspended == some page
  | .header p i => (s.part p).store.find i |>.any fun l => l.suspended == some page
  | .completion _ id =>
    match (s.req id).map Req.body with
    | some (.completion _ _ _ (some p)) => p == page
    | _ => false
  | .save p => (s.part p).saveWait == some page

/-- An agent looks up again. -/
def State.resumeAgent (s : State) (a : Agent) (page : Nat) : State :=
  match a with
  | .entry core i => s.wakeEntry core i page false
  | .atomic core ctx =>
    let t := s.thread core ctx
    s.setThread core ctx { t with slot := t.slot.wake }
  | .command st i =>
    match (s.stage st).commands.find i with
    | some c => s.setCommand st i c.again
    | none => s
  | .segment st stream => s.setStream st stream ((s.stage st).stream stream).again
  | .walk st n => s.setRay st n ((s.stage st).ray n).again
  | .raster d u q => s.setRaster d u q { (s.die d).queue u q with suspended := none }
  | .header p i =>
    let v := s.part p
    match v.store.find i with
    | some l => s.setPart p { v with store := v.store.set i { l with suspended := none } }
    | none => s
  | .completion p id =>
    match s.req id with
    | some q =>
      match q.body with
      | .completion _ addr v _ => s.replace { q with body := .completion p addr v none }
      | _ => s
    | none => s
  | .save p => s.setPart p { s.part p with saveWait := none }

/-- An atomic whose trap must wait for x29 keeps its wake waiting. -/
def State.mustWait (s : State) (a : Agent) (deny : Bool) : Bool :=
  match a with
  | .atomic core ctx => deny && (⟨s.liveImg core ctx, (s.thread core ctx).slot⟩ : Thread).pendingX 29#5
  | _ => false

/-- The agents that look up in a TLB. -/
def State.agentsOf (s : State) : TlbId → List Agent
  | .core c => ((s.core c).queues.dq.map fun e => Agent.entry c e.1) ++ (List.range 17).map (Agent.atomic c)
  | .copy st =>
    ((s.stage st).commands.map fun e => Agent.command st e.1) ++ ((s.stage st).streams.map fun e => Agent.segment st e.1) ++
      (s.parts.filter fun p => p.2.stages.contains st).map (fun p => Agent.save p.1) ++
      s.parts.flatMap fun p =>
        if p.2.stages.headD 0 = st then
          (p.2.store.map fun e => Agent.header p.1 e.1) ++ s.reqs.filterMap fun r => match r.body with
            | .completion q _ _ _ => if q = p.1 then some (Agent.completion q r.id) else none
            | _ => none
        else []
  | .trav st => (s.stage st).rays.map fun e => Agent.walk st e.1
  | .raster d u => (List.range 64).map (Agent.raster d u)

/-- The context an agent's accesses are made in. -/
def State.ctxOf (s : State) : Agent → Nat
  | .entry c _ => s.contextOf c
  | .atomic c _ => s.contextOf c
  | .command st _ => s.contextOfStage st
  | .segment st _ => s.contextOfStage st
  | .walk st _ => s.contextOfStage st
  | .raster d u q => ((s.die d).queue u q).node
  | .header p _ => p
  | .completion p _ => p
  | .save p => p

/-- An agent that a wake restarts, or with deny fails. -/
def State.wakeAgent (s : State) (a : Agent) (page : Nat) (deny : Bool) : State :=
  if !deny then s.resumeAgent a page
  else
    match a with
    | .entry core i => s.wakeEntry core i page true
    | a => s.failAgent a page Cause.pageFault

/-- A wake reaches a core or a unit (25 R362): the fault entries of its context that cover the page go first, and then every
access that waits on the page restarts; where nothing waits, as in a saved partition (R366), the wake is discarded. -/
def execAgentWake (id : Nat) (s : State) : Result :=
  .next (match s.req id with
    | some r =>
      match r.body with
      | .agentWake a ctx page deny =>
        let t := s.tlbOf a
        let saved := (s.part ctx).state.getLsbD 1 || s.haltStep ctx == 5
        let waiting := (s.agentsOf t).filter fun b =>
          s.ctxOf b == ctx && s.suspendedOn b page && (!saved || b == .save ctx)
        if waiting.any fun b => s.mustWait b deny then s
        else
          let s := (s.drop id).dropEntries t ctx fun e => e.bits.getLsbD 108 && e.covers (page * 65536)
          waiting.foldl (fun s b => s.wakeAgent b page deny) s
      | _ => s
    | none => s)

/-! ## Translation timeouts (25 R356) -/

/-- The state an execution ends in. -/
def nextOf (s : State) : Result → State
  | .next t => t
  | _ => s

/-- The next work of an agent, tried: it sends the miss again where it waits on that. -/
def State.tryAgent (s : State) (a : Agent) : State :=
  match a with
  | .entry core i => nextOf s (execDqEntryComplete core i s)
  | .atomic _ _ => s
  | .command st i =>
    match (s.stage st).commands.find i with
    | some c => if c.suspended.isNone ∧ c.source = .moving then s.moveCommand st i c else s
    | none => s
  | .segment st stream => nextOf s (execSegmentPlay st stream s)
  | .walk st n => nextOf s (execWalkerFetch st n s)
  | .raster d u q => nextOf s (execRasterRecord d u q s)
  | .header p i => nextOf s (execHeaderRead (p * 128 + i) s)
  | .completion _ id => nextOf s (execKernelRetire id s)
  | .save p => nextOf s (if (s.part p).state = 3#2 then execRestoreCommand p s else execPreemptSave p s)

/-- Does an agent wait on a miss, in a state without it: is its very next access the one that misses? One that only looked ahead,
or has not come to the page yet, does not. -/
def State.waitsMiss (s : State) (t : TlbId) (ctx page : Nat) (a : Agent) : Bool :=
  match a with
  | .atomic core c => (s.thread core c).slot.waitsMiss page
  | .entry core i =>
    match (s.core core).queues.dq.find i with
    | some e => s.entryOpen core e && e.vaAt e.done / 65536 == page && s.nextAccess core e == .miss
    | none => false
  | a =>
    let u := s.tryAgent a
    u.missing t ctx page && u.stages == s.stages && u.dies == s.dies && u.parts == s.parts && u.mem == s.mem && u.dram == s.dram

/-- The device's own queue records that wait on a miss fail as R396 gives. -/
def State.failRecord (s : State) (t : TlbId) (page : Nat) (q : Req) : State :=
  match q.body with
  | .post part _ =>
    let p := s.part part
    let va := ringSlot p.errBase p.errPtr
    if TlbId.copy (p.stages.headD 0) = t ∧ va / 65536 = page then
      ((s.drop q.id).setPart part { p with errPtr := ringDrop p.errPtr }).machineCheck
        (failedRecord (p.stages.headD 0) va Cause.translationTimeout false)
    else s
  | .pagerPost part r false =>
    let p := s.part part
    let va := ringSlot p.pgBase p.pgPtr
    if TlbId.copy (p.stages.headD 0) = t ∧ va / 65536 = page then
      (s.replace { q with body := .pagerPost part r true }).machineCheck
        (failedRecord (p.stages.headD 0) va Cause.translationTimeout true)
    else s
  | _ => s

/-- A miss that nothing answers within 2^26 cycles: the accesses that wait on it fail, and the TLB posts one record. -/
def execTranslationTimeout (id : Nat) (s : State) : Result :=
  .next (match s.req id with
    | some r =>
      match r.body with
      | .miss t ctx page va since =>
        if s.cycle < since + 67108864 then s
        else
          let s' := s.drop id
          let waiting := (s'.agentsOf t).filter (s'.waitsMiss t ctx page)
          if waiting.any fun a => s.mustWait a true then s
          else
            let u := waiting.foldl (fun s a => s.failAgent a page Cause.translationTimeout) s'
            let u := (s'.reqs.filter s'.nextRecord).foldl (fun s q => s.failRecord t page q) u
            u.postError ctx (t.record Cause.translationTimeout (BitVec.ofNat 64 va) (t.requester.setWidth 64))
      | _ => s
    | none => s)

end Sys2Proof.Machine
end

