-- ==== Sys2Proof/Machine/Dispatch.lean ====
section
/-!
DEFINITION. Dispatch.lean: the meaning of every instruction and event, one arm a constructor.
-/

namespace Sys2Proof.Machine

def exec (i : Instr) (s : State) : Host.Outcome State Fault Refusal :=
  match i with
  | .add d a b => Sys2Proof.Machine.execAdd d a b s
  | .sub d a b => Sys2Proof.Machine.execSub d a b s
  | .and d a b => Sys2Proof.Machine.execAnd d a b s
  | .or d a b => Sys2Proof.Machine.execOr d a b s
  | .xor d a b => Sys2Proof.Machine.execXor d a b s
  | .andn d a b => Sys2Proof.Machine.execAndn d a b s
  | .orn d a b => Sys2Proof.Machine.execOrn d a b s
  | .min d a b => Sys2Proof.Machine.execMin d a b s
  | .max d a b => Sys2Proof.Machine.execMax d a b s
  | .minu d a b => Sys2Proof.Machine.execMinu d a b s
  | .maxu d a b => Sys2Proof.Machine.execMaxu d a b s
  | .slt d a b => Sys2Proof.Machine.execSlt d a b s
  | .sltu d a b => Sys2Proof.Machine.execSltu d a b s
  | .seq d a b => Sys2Proof.Machine.execSeq d a b s
  | .sel d a b => Sys2Proof.Machine.execSel d a b s
  | .abs d a => Sys2Proof.Machine.execAbs d a s
  | .addi d a imm => Sys2Proof.Machine.execAddi d a imm s
  | .andi d a imm => Sys2Proof.Machine.execAndi d a imm s
  | .ori d a imm => Sys2Proof.Machine.execOri d a imm s
  | .xori d a imm => Sys2Proof.Machine.execXori d a imm s
  | .slti d a imm => Sys2Proof.Machine.execSlti d a imm s
  | .sltiu d a imm => Sys2Proof.Machine.execSltiu d a imm s
  | .ldi d imm => Sys2Proof.Machine.execLdi d imm s
  | .ldiL d imm => Sys2Proof.Machine.execLdiL d imm s
  | .shl d a b => Sys2Proof.Machine.execShl d a b s
  | .shr d a b => Sys2Proof.Machine.execShr d a b s
  | .sra d a b => Sys2Proof.Machine.execSra d a b s
  | .rot d a b => Sys2Proof.Machine.execRot d a b s
  | .fshl d a b => Sys2Proof.Machine.execFshl d a b s
  | .fshr d a b => Sys2Proof.Machine.execFshr d a b s
  | .shli d a imm => Sys2Proof.Machine.execShli d a imm s
  | .shri d a imm => Sys2Proof.Machine.execShri d a imm s
  | .srai d a imm => Sys2Proof.Machine.execSrai d a imm s
  | .roti d a imm => Sys2Proof.Machine.execRoti d a imm s
  | .clz d a => Sys2Proof.Machine.execClz d a s
  | .ctz d a => Sys2Proof.Machine.execCtz d a s
  | .popc d a => Sys2Proof.Machine.execPopc d a s
  | .brev d a => Sys2Proof.Machine.execBrev d a s
  | .sext d a n => Sys2Proof.Machine.execSext d a n s
  | .zext d a n => Sys2Proof.Machine.execZext d a n s
  | .bext d a b => Sys2Proof.Machine.execBext d a b s
  | .bins d a b => Sys2Proof.Machine.execBins d a b s
  | .mul d a b => Sys2Proof.Machine.execMul d a b s
  | .mulh d a b => Sys2Proof.Machine.execMulh d a b s
  | .mulhu d a b => Sys2Proof.Machine.execMulhu d a b s
  | .mulhm d a b => Sys2Proof.Machine.execMulhm d a b s
  | .div d a b => Sys2Proof.Machine.execDiv d a b s
  | .divu d a b => Sys2Proof.Machine.execDivu d a b s
  | .rem d a b => Sys2Proof.Machine.execRem d a b s
  | .remu d a b => Sys2Proof.Machine.execRemu d a b s
  | .csetb d a b => Sys2Proof.Machine.execCsetb d a b s
  | .cperm d a b => Sys2Proof.Machine.execCperm d a b s
  | .cinc d a b => Sys2Proof.Machine.execCinc d a b s
  | .cmesh d a b => Sys2Proof.Machine.execCmesh d a b s
  | .ctest d a b => Sys2Proof.Machine.execCtest d a b s
  | .cclr d a => Sys2Proof.Machine.execCclr d a s
  | .cinci d a imm => Sys2Proof.Machine.execCinci d a imm s
  | .cget d f a => Sys2Proof.Machine.execCget d f a s
  | .beq a b o => Sys2Proof.Machine.execBeq a b o s
  | .bne a b o => Sys2Proof.Machine.execBne a b o s
  | .blt a b o => Sys2Proof.Machine.execBlt a b o s
  | .bge a b o => Sys2Proof.Machine.execBge a b o s
  | .bltu a b o => Sys2Proof.Machine.execBltu a b o s
  | .bgeu a b o => Sys2Proof.Machine.execBgeu a b o s
  | .jal d o => Sys2Proof.Machine.execJal d o s
  | .bL c a b o => Sys2Proof.Machine.execBL c a b o s
  | .jr a => Sys2Proof.Machine.execJr a s
  | .jalr d a => Sys2Proof.Machine.execJalr d a s
  | .done => Sys2Proof.Machine.execDone s
  | .yield => Sys2Proof.Machine.execYield s
  | .nop => Sys2Proof.Machine.execNop s
  | .waitf d => Sys2Proof.Machine.execWaitf d s
  | .loop a e => Sys2Proof.Machine.execLoop a e s
  | .trap c => Sys2Proof.Machine.execTrap c s
  | .loopi n e => Sys2Proof.Machine.execLoopi n e s
  | .lb d a imm => Sys2Proof.Machine.execLb d a imm s
  | .lh d a imm => Sys2Proof.Machine.execLh d a imm s
  | .lw d a imm => Sys2Proof.Machine.execLw d a imm s
  | .ld d a imm => Sys2Proof.Machine.execLd d a imm s
  | .lbu d a imm => Sys2Proof.Machine.execLbu d a imm s
  | .lhu d a imm => Sys2Proof.Machine.execLhu d a imm s
  | .lwu d a imm => Sys2Proof.Machine.execLwu d a imm s
  | .lq d a imm => Sys2Proof.Machine.execLq d a imm s
  | .sb a b imm => Sys2Proof.Machine.execSb a b imm s
  | .sh a b imm => Sys2Proof.Machine.execSh a b imm s
  | .sw a b imm => Sys2Proof.Machine.execSw a b imm s
  | .sd a b imm => Sys2Proof.Machine.execSd a b imm s
  | .sq a b imm => Sys2Proof.Machine.execSq a b imm s
  | .sbPostinc a b imm => Sys2Proof.Machine.execSbPostinc a b imm s
  | .shPostinc a b imm => Sys2Proof.Machine.execShPostinc a b imm s
  | .swPostinc a b imm => Sys2Proof.Machine.execSwPostinc a b imm s
  | .sdPostinc a b imm => Sys2Proof.Machine.execSdPostinc a b imm s
  | .sqPostinc a b imm => Sys2Proof.Machine.execSqPostinc a b imm s
  | .lbPostinc d a imm => Sys2Proof.Machine.execLbPostinc d a imm s
  | .lhPostinc d a imm => Sys2Proof.Machine.execLhPostinc d a imm s
  | .lwPostinc d a imm => Sys2Proof.Machine.execLwPostinc d a imm s
  | .ldPostinc d a imm => Sys2Proof.Machine.execLdPostinc d a imm s
  | .lbuPostinc d a imm => Sys2Proof.Machine.execLbuPostinc d a imm s
  | .lhuPostinc d a imm => Sys2Proof.Machine.execLhuPostinc d a imm s
  | .lwuPostinc d a imm => Sys2Proof.Machine.execLwuPostinc d a imm s
  | .lqPostinc d a imm => Sys2Proof.Machine.execLqPostinc d a imm s
  | .lea d a sv imm => Sys2Proof.Machine.execLea d a sv imm s
  | .sbind d g a e => Sys2Proof.Machine.execSbind d g a e s
  | .sbindA d g a e => Sys2Proof.Machine.execSbindA d g a e s
  | .sunbind d => Sys2Proof.Machine.execSunbind d s
  | .sstat d g => Sys2Proof.Machine.execSstat d g s
  | .streamFetch core ctx gen => Sys2Proof.Machine.execStreamFetch core ctx gen s
  | .dpull d c a b => Sys2Proof.Machine.execDpull d c a b s
  | .dpush d c a b => Sys2Proof.Machine.execDpush d c a b s
  | .dgath d c a b => Sys2Proof.Machine.execDgath d c a b s
  | .cwait c imm => Sys2Proof.Machine.execCwait c imm s
  | .cwaitReg c a => Sys2Proof.Machine.execCwaitReg c a s
  | .cadd c imm => Sys2Proof.Machine.execCadd c imm s
  | .caddReg c a => Sys2Proof.Machine.execCaddReg c a s
  | .cset c imm => Sys2Proof.Machine.execCset c imm s
  | .csetReg c a => Sys2Proof.Machine.execCsetReg c a s
  | .crd d c => Sys2Proof.Machine.execCrd d c s
  | .fenceC p q => Sys2Proof.Machine.execFenceC p q s
  | .fenceS p q => Sys2Proof.Machine.execFenceS p q s
  | .fenceD p q => Sys2Proof.Machine.execFenceD p q s
  | .fenceP p q => Sys2Proof.Machine.execFenceP p q s
  | .fenceY p q => Sys2Proof.Machine.execFenceY p q s
  | .afence => Sys2Proof.Machine.execAfence s
  | .ifence => Sys2Proof.Machine.execIfence s
  | .aadd d a b z => Sys2Proof.Machine.execAadd d a b z s
  | .aand d a b z => Sys2Proof.Machine.execAand d a b z s
  | .aor d a b z => Sys2Proof.Machine.execAor d a b z s
  | .axor d a b z => Sys2Proof.Machine.execAxor d a b z s
  | .amin d a b z => Sys2Proof.Machine.execAmin d a b z s
  | .amax d a b z => Sys2Proof.Machine.execAmax d a b z s
  | .aminu d a b z => Sys2Proof.Machine.execAminu d a b z s
  | .amaxu d a b z => Sys2Proof.Machine.execAmaxu d a b z s
  | .aswp d a b z => Sys2Proof.Machine.execAswp d a b z s
  | .acas d a b z => Sys2Proof.Machine.execAcas d a b z s
  | .afadd d a b z => Sys2Proof.Machine.execAfadd d a b z s
  | .afmin d a b z => Sys2Proof.Machine.execAfmin d a b z s
  | .afmax d a b z => Sys2Proof.Machine.execAfmax d a b z s
  | .radd a b z => Sys2Proof.Machine.execRadd a b z s
  | .aaddTz d a b k => Sys2Proof.Machine.execAaddTz d a b k s
  | .raddTz a b k => Sys2Proof.Machine.execRaddTz a b k s
  | .ulmAtomic core => Sys2Proof.Machine.execUlmAtomic core s
  | .houseAtomic id => Sys2Proof.Machine.execHouseAtomic id s
  | .atomicReply id => Sys2Proof.Machine.execAtomicReply id s
  | .send d a k => Sys2Proof.Machine.execSend d a k s
  | .sendL d b k a n r => Sys2Proof.Machine.execSendL d b k a n r s
  | .bind d a imm => Sys2Proof.Machine.execBind d a imm s
  | .rebind d a imm => Sys2Proof.Machine.execRebind d a imm s
  | .unbind a => Sys2Proof.Machine.execUnbind a s
  | .spawn d a b => Sys2Proof.Machine.execSpawn d a b s
  | .launch d a b => Sys2Proof.Machine.execLaunch d a b s
  | .join a => Sys2Proof.Machine.execJoin a s
  | .leave a => Sys2Proof.Machine.execLeave a s
  | .barw a => Sys2Proof.Machine.execBarw a s
  | .bara a => Sys2Proof.Machine.execBara a s
  | .bard a => Sys2Proof.Machine.execBard a s
  | .barq d a => Sys2Proof.Machine.execBarq d a s
  | .quiesce => Sys2Proof.Machine.execQuiesce s
  | .groupRequest id => Sys2Proof.Machine.execGroupRequest id s
  | .groupAnswer id => Sys2Proof.Machine.execGroupAnswer id s
  | .fadd d a b t r => Sys2Proof.Machine.execFadd d a b t r s
  | .fsub d a b t r => Sys2Proof.Machine.execFsub d a b t r s
  | .fmul d a b t r => Sys2Proof.Machine.execFmul d a b t r s
  | .fdiv d a b t r => Sys2Proof.Machine.execFdiv d a b t r s
  | .fsqrt d a t r => Sys2Proof.Machine.execFsqrt d a t r s
  | .fma d a b t r => Sys2Proof.Machine.execFma d a b t r s
  | .fnma d a b t r => Sys2Proof.Machine.execFnma d a b t r s
  | .fmin d a b t => Sys2Proof.Machine.execFmin d a b t s
  | .fmax d a b t => Sys2Proof.Machine.execFmax d a b t s
  | .fcmp d a b t => Sys2Proof.Machine.execFcmp d a b t s
  | .fclass d a t => Sys2Proof.Machine.execFclass d a t s
  | .fmvxJ d a b t => Sys2Proof.Machine.execFmvxJ d a b t s
  | .fmvxN d a b t => Sys2Proof.Machine.execFmvxN d a b t s
  | .fmvxX d a b t => Sys2Proof.Machine.execFmvxX d a b t s
  | .fcvt d a p q r => Sys2Proof.Machine.execFcvt d a p q r s
  | .fcvtInt d a p q r => Sys2Proof.Machine.execFcvtInt d a p q r s
  | .fcvtf d a p q r => Sys2Proof.Machine.execFcvtf d a p q r s
  | .vadd d a b w m e => Sys2Proof.Machine.execVadd d a b w m e s
  | .vsub d a b w m e => Sys2Proof.Machine.execVsub d a b w m e s
  | .vmul d a b w m e => Sys2Proof.Machine.execVmul d a b w m e s
  | .vmulh d a b w m e => Sys2Proof.Machine.execVmulh d a b w m e s
  | .vmin d a b w m e => Sys2Proof.Machine.execVmin d a b w m e s
  | .vmax d a b w m e => Sys2Proof.Machine.execVmax d a b w m e s
  | .vminu d a b w m e => Sys2Proof.Machine.execVminu d a b w m e s
  | .vmaxu d a b w m e => Sys2Proof.Machine.execVmaxu d a b w m e s
  | .vand d a b w m e => Sys2Proof.Machine.execVand d a b w m e s
  | .vor d a b w m e => Sys2Proof.Machine.execVor d a b w m e s
  | .vxor d a b w m e => Sys2Proof.Machine.execVxor d a b w m e s
  | .vshl d a b w m e => Sys2Proof.Machine.execVshl d a b w m e s
  | .vshr d a b w m e => Sys2Proof.Machine.execVshr d a b w m e s
  | .vsra d a b w m e => Sys2Proof.Machine.execVsra d a b w m e s
  | .vfshl d a b w m e => Sys2Proof.Machine.execVfshl d a b w m e s
  | .vfshr d a b w m e => Sys2Proof.Machine.execVfshr d a b w m e s
  | .vclz d a w m e => Sys2Proof.Machine.execVclz d a w m e s
  | .vpopc d a w m e => Sys2Proof.Machine.execVpopc d a w m e s
  | .vabs d a w m e => Sys2Proof.Machine.execVabs d a w m e s
  | .vsadd d a b w m e => Sys2Proof.Machine.execVsadd d a b w m e s
  | .vssub d a b w m e => Sys2Proof.Machine.execVssub d a b w m e s
  | .vfadd d a b w r m e => Sys2Proof.Machine.execVfadd d a b w r m e s
  | .vfsub d a b w r m e => Sys2Proof.Machine.execVfsub d a b w r m e s
  | .vfmul d a b w r m e => Sys2Proof.Machine.execVfmul d a b w r m e s
  | .vfma d a b w r m e => Sys2Proof.Machine.execVfma d a b w r m e s
  | .vfmin d a b w m e => Sys2Proof.Machine.execVfmin d a b w m e s
  | .vfmax d a b w m e => Sys2Proof.Machine.execVfmax d a b w m e s
  | .vfexpn d a w r m e => Sys2Proof.Machine.execVfexpn d a w r m e s
  | .vfrcp d a w r m e => Sys2Proof.Machine.execVfrcp d a w r m e s
  | .vfcvt d a sv w r m e => Sys2Proof.Machine.execVfcvt d a sv w r m e s
  | .vfcvtFp8 d a sv w r m e => Sys2Proof.Machine.execVfcvtFp8 d a sv w r m e s
  | .vfcvtInt d a sv w r m e => Sys2Proof.Machine.execVfcvtInt d a sv w r m e s
  | .vfcvtUint d a sv w r m e => Sys2Proof.Machine.execVfcvtUint d a sv w r m e s
  | .vld d a e m k => Sys2Proof.Machine.execVld d a e m k s
  | .vst a sv w e m k => Sys2Proof.Machine.execVst a sv w e m k s
  | .vldu d a m k => Sys2Proof.Machine.execVldu d a m k s
  | .vstu a sv w m k => Sys2Proof.Machine.execVstu a sv w m k s
  | .vgath d a sv w e k => Sys2Proof.Machine.execVgath d a sv w e k s
  | .vscat d a sv w e k => Sys2Proof.Machine.execVscat d a sv w e k s
  | .vbcast d a e imm => Sys2Proof.Machine.execVbcast d a e imm s
  | .vperm d a b w m e => Sys2Proof.Machine.execVperm d a b w m e s
  | .vredadd d a w m e => Sys2Proof.Machine.execVredadd d a w m e s
  | .vredmax d a w m e => Sys2Proof.Machine.execVredmax d a w m e s
  | .vredmin d a w m e => Sys2Proof.Machine.execVredmin d a w m e s
  | .vgmax d g a w m e => Sys2Proof.Machine.execVgmax d g a w m e s
  | .vgmin d g a w m e => Sys2Proof.Machine.execVgmin d g a w m e s
  | .vscan d a w m e => Sys2Proof.Machine.execVscan d a w m e s
  | .vsel d a b w m e => Sys2Proof.Machine.execVsel d a b w m e s
  | .vcmp d c a b w m e => Sys2Proof.Machine.execVcmp d c a b w m e s
  | .mand d a b => Sys2Proof.Machine.execMand d a b s
  | .mor d a b => Sys2Proof.Machine.execMor d a b s
  | .mxor d a b => Sys2Proof.Machine.execMxor d a b s
  | .mnot d a => Sys2Proof.Machine.execMnot d a s
  | .vslide d a sv w e k => Sys2Proof.Machine.execVslide d a sv w e k s
  | .vmovx d l sv w e => Sys2Proof.Machine.execVmovx d l sv w e s
  | .vins d l a e => Sys2Proof.Machine.execVins d l a e s
  | .mpop d sv => Sys2Proof.Machine.execMpop d sv s
  | .mfirst d sv => Sys2Proof.Machine.execMfirst d sv s
  | .mgen d a => Sys2Proof.Machine.execMgen d a s
  | .tdecl f a t u => Sys2Proof.Machine.execTdecl f a t u s
  | .tfree t u => Sys2Proof.Machine.execTfree t u s
  | .tgive a t u => Sys2Proof.Machine.execTgive a t u s
  | .ttake t u => Sys2Proof.Machine.execTtake t u s
  | .twait t u => Sys2Proof.Machine.execTwait t u s
  | .tstat d u => Sys2Proof.Machine.execTstat d u s
  | .tfmt a => Sys2Proof.Machine.execTfmt a s
  | .ttrl t u o => Sys2Proof.Machine.execTtrl t u o s
  | .tsub a => Sys2Proof.Machine.execTsub a s
  | .tqry d a => Sys2Proof.Machine.execTqry d a s
  | .xcopy a => Sys2Proof.Machine.execXcopy a s
  | .skbc a b w => Sys2Proof.Machine.execSkbc a b w s
  | .xstrm a b => Sys2Proof.Machine.execXstrm a b s
  | .sbpld a b => Sys2Proof.Machine.execSbpld a b s
  | .sbprd d a => Sys2Proof.Machine.execSbprd d a s
  | .segmentPlay stage stream => Sys2Proof.Machine.execSegmentPlay stage stream s
  | .segmentReturn id => Sys2Proof.Machine.execSegmentReturn id s
  | .taskStart stage engine => Sys2Proof.Machine.execTaskStart stage engine s
  | .promotionBlock stage engine => Sys2Proof.Machine.execPromotionBlock stage engine s
  | .taskComplete stage engine => Sys2Proof.Machine.execTaskComplete stage engine s
  | .taskDrain stage engine => Sys2Proof.Machine.execTaskDrain stage engine s
  | .copyCommandStart stage => Sys2Proof.Machine.execCopyCommandStart stage s
  | .copyDestinationFill stage cmd dest => Sys2Proof.Machine.execCopyDestinationFill stage cmd dest s
  | .copyCommandComplete stage cmd => Sys2Proof.Machine.execCopyCommandComplete stage cmd s
  | .raynew d a => Sys2Proof.Machine.execRaynew d a s
  | .raygo a => Sys2Proof.Machine.execRaygo a s
  | .spsrc a b => Sys2Proof.Machine.execSpsrc a b s
  | .spins a b => Sys2Proof.Machine.execSpins a b s
  | .spsettle a b => Sys2Proof.Machine.execSpsettle a b s
  | .spdone a => Sys2Proof.Machine.execSpdone a s
  | .sprd d a b => Sys2Proof.Machine.execSprd d a b s
  | .raystop a => Sys2Proof.Machine.execRaystop a s
  | .rayfree a => Sys2Proof.Machine.execRayfree a s
  | .rayUnitReply id => Sys2Proof.Machine.execRayUnitReply id s
  | .walkerStep stage slot => Sys2Proof.Machine.execWalkerStep stage slot s
  | .walkerFetch stage slot => Sys2Proof.Machine.execWalkerFetch stage slot s
  | .travAbort stage ctx => Sys2Proof.Machine.execTravAbort stage ctx s
  | .travReset stage ctx => Sys2Proof.Machine.execTravReset stage ctx s
  | .travSdfWrite stage value => Sys2Proof.Machine.execTravSdfWrite stage value s
  | .vbmin d a b => Sys2Proof.Machine.execVbmin d a b s
  | .wgemit a b => Sys2Proof.Machine.execWgemit a b s
  | .wgfin a => Sys2Proof.Machine.execWgfin a s
  | .rasterRecord die unit queue => Sys2Proof.Machine.execRasterRecord die unit queue s
  | .rasterQueueComplete die unit queue => Sys2Proof.Machine.execRasterQueueComplete die unit queue s
  | .csrr d n => Sys2Proof.Machine.execCsrr d n s
  | .csrw a n => Sys2Proof.Machine.execCsrw a n s
  | .csrx d a n => Sys2Proof.Machine.execCsrx d a n s
  | .hcall n => Sys2Proof.Machine.execHcall n s
  | .eret => Sys2Proof.Machine.execEret s
  | .wfi => Sys2Proof.Machine.execWfi s
  | .tlbw a b => Sys2Proof.Machine.execTlbw a b s
  | .tlbi a => Sys2Proof.Machine.execTlbi a s
  | .tlbp d a => Sys2Proof.Machine.execTlbp d a s
  | .ctxsv a => Sys2Proof.Machine.execCtxsv a s
  | .ctxld a => Sys2Proof.Machine.execCtxld a s
  | .snap d => Sys2Proof.Machine.execSnap d s
  | .curtainTimeout block => Sys2Proof.Machine.execCurtainTimeout block s
  | .curtainFall => Sys2Proof.Machine.execCurtainFall s
  | .cMov a b => Sys2Proof.Machine.execCMov a b s
  | .cAdd a b => Sys2Proof.Machine.execCAdd a b s
  | .cSub a b => Sys2Proof.Machine.execCSub a b s
  | .cAddi a imm => Sys2Proof.Machine.execCAddi a imm s
  | .cLdi a imm => Sys2Proof.Machine.execCLdi a imm s
  | .cLw a b imm => Sys2Proof.Machine.execCLw a b imm s
  | .cSw a b imm => Sys2Proof.Machine.execCSw a b imm s
  | .cBeqz a imm => Sys2Proof.Machine.execCBeqz a imm s
  | .cBnez a imm => Sys2Proof.Machine.execCBnez a imm s
  | .cJ imm => Sys2Proof.Machine.execCJ imm s
  | .cCwait c imm => Sys2Proof.Machine.execCCwait c imm s
  | .cNop => Sys2Proof.Machine.execCNop s
  | .cDone => Sys2Proof.Machine.execCDone s
  | .cRet => Sys2Proof.Machine.execCRet s
  | .messageArrival id => Sys2Proof.Machine.execMessageArrival id s
  | .messageRetry id => Sys2Proof.Machine.execMessageRetry id s
  | .unboundTimeout id => Sys2Proof.Machine.execUnboundTimeout id s
  | .messageDequeue core => Sys2Proof.Machine.execMessageDequeue core s
  | .startMessage id => Sys2Proof.Machine.execStartMessage id s
  | .spawnRequest id => Sys2Proof.Machine.execSpawnRequest id s
  | .spawnAnswer id => Sys2Proof.Machine.execSpawnAnswer id s
  | .counterBump id => Sys2Proof.Machine.execCounterBump id s
  | .handlerBudget core => Sys2Proof.Machine.execHandlerBudget core s
  | .blockSwap core => Sys2Proof.Machine.execBlockSwap core s
  | .quantumSwap core => Sys2Proof.Machine.execQuantumSwap core s
  | .slotSwapComplete core => Sys2Proof.Machine.execSlotSwapComplete core s
  | .divideComplete id => Sys2Proof.Machine.execDivideComplete id s
  | .mapAccess id => Sys2Proof.Machine.execMapAccess id s
  | .loadReply id => Sys2Proof.Machine.execLoadReply id s
  | .dqEntryStart core => Sys2Proof.Machine.execDqEntryStart core s
  | .dqEntryComplete core entry => Sys2Proof.Machine.execDqEntryComplete core entry s
  | .dqAccessFault core entry => Sys2Proof.Machine.execDqAccessFault core entry s
  | .dqFaultRecordWrite core => Sys2Proof.Machine.execDqFaultRecordWrite core s
  | .dqFaultClear core => Sys2Proof.Machine.execDqFaultClear core s
  | .deferredTrap core ctx => Sys2Proof.Machine.execDeferredTrap core ctx s
  | .watchdog core => Sys2Proof.Machine.execWatchdog core s
  | .scopeMiss id => Sys2Proof.Machine.execScopeMiss id s
  | .translationTimeout id => Sys2Proof.Machine.execTranslationTimeout id s
  | .faultClimb id => Sys2Proof.Machine.execFaultClimb id s
  | .pagerWake part ctx page deny => Sys2Proof.Machine.execPagerWake part ctx page deny s
  | .routerWake id => Sys2Proof.Machine.execRouterWake id s
  | .agentWake id => Sys2Proof.Machine.execAgentWake id s
  | .queueRecordWrite id => Sys2Proof.Machine.execQueueRecordWrite id s
  | .pgqWrite id => Sys2Proof.Machine.execPgqWrite id s
  | .hostLaunchRecord id => Sys2Proof.Machine.execHostLaunchRecord id s
  | .headerRead id => Sys2Proof.Machine.execHeaderRead id s
  | .kernelPlacement id => Sys2Proof.Machine.execKernelPlacement id s
  | .kernelRetire id => Sys2Proof.Machine.execKernelRetire id s
  | .gateAdmit die => Sys2Proof.Machine.execGateAdmit die s
  | .rampEnd die => Sys2Proof.Machine.execRampEnd die s
  | .didtLimitWrite die value => Sys2Proof.Machine.execDidtLimitWrite die value s
  | .engRampWrite die value => Sys2Proof.Machine.execEngRampWrite die value s
  | .quiescenceDetected part => Sys2Proof.Machine.execQuiescenceDetected part s
  | .quiesceProbe part => Sys2Proof.Machine.execQuiesceProbe part s
  | .preemptCommand part => Sys2Proof.Machine.execPreemptCommand part s
  | .preemptSave part => Sys2Proof.Machine.execPreemptSave part s
  | .restoreCommand part => Sys2Proof.Machine.execRestoreCommand part s
  | .loopDepthWrite core ctx value => Sys2Proof.Machine.execLoopDepthWrite core ctx value s
  | .bankFmtWrite core bank value => Sys2Proof.Machine.execBankFmtWrite core bank value s
  | .registerWrite addr value => Sys2Proof.Machine.execRegisterWrite addr value s
  | .dramRead addr gran tol => Sys2Proof.Machine.execDramRead addr gran tol s
  | .dramWrite addr gran tol n value => Sys2Proof.Machine.execDramWrite addr gran tol n value s
  | .periodicRefresh stack bank => Sys2Proof.Machine.execPeriodicRefresh stack bank s
  | .rfmLevelWrite stack value => Sys2Proof.Machine.execRfmLevelWrite stack value s
  | .rfmCreditWrite stack value => Sys2Proof.Machine.execRfmCreditWrite stack value s
  | .compressionResetNotice core => Sys2Proof.Machine.execCompressionResetNotice core s
  | .flitReplay port => Sys2Proof.Machine.execFlitReplay port s
  | .linkRetrain port => Sys2Proof.Machine.execLinkRetrain port s
  | .linkRetrainEnd port => Sys2Proof.Machine.execLinkRetrainEnd port s
  | .peerRequest port => Sys2Proof.Machine.execPeerRequest port s
  | .coldStart => Sys2Proof.Machine.execColdStart s
  | .warmStart => Sys2Proof.Machine.execWarmStart s
  | .liveUpdate => Sys2Proof.Machine.execLiveUpdate s
  | .telemetryRecord die => Sys2Proof.Machine.execTelemetryRecord die s
  | .illegalInstruction => Sys2Proof.Machine.execIllegalInstruction s
  | .wfiEndWithoutEvent core ctx => Sys2Proof.Machine.execWfiEndWithoutEvent core ctx s
  | .attestationQuote nonce => Sys2Proof.Machine.execAttestationQuote nonce s
  | .orderlyShutdown => Sys2Proof.Machine.execOrderlyShutdown s
  | .partitionReset part => Sys2Proof.Machine.execPartitionReset part s

end Sys2Proof.Machine
end

