-- ==== Sys2Proof/Machine/Issue.lean ====
section
/-!
DEFINITION. Issue.lean: one attempt of a context to execute its next instruction, and which context a core issues from
(03 R32).
-/

namespace Sys2Proof.Machine

/-- The fetch, decode and execution of the instruction at the current pc, after the checks that come before it. -/
noncomputable def State.executeNext (s : State) : Result :=
  let core := s.cur.1
  let ctx := s.cur.2
  let pc := s.img.pc
  if pc.getLsbD 0 then .next (s.takeTrap core ctx Cause.branchInto pc 0#64 false false)
  else
  match (if s.img.mode = .user then s.fetchWings core pc else none) with
  | some off => .next (s.takeTrap core ctx Cause.wings pc (BitVec.ofNat 64 off) false false)
  | none =>
    if s.extensionAt core pc then .refused .firmwareExtension
    else
      match s.decodeAtPc core pc with
      | .ok (i, _) => exec i s
      | .error .illegal => exec .illegalInstruction s
      | .error .branchInto => .next (s.takeTrap core ctx Cause.branchInto pc s.curWord false false)

/-- A soft error that the instruction at the pc meets is raised (24 R340); while x29 has a pending producer it is kept, and
nothing else is taken before it. -/
def State.raiseSoft (s : State) (core ctx : Nat) (e : Soft) : State :=
  let t := s.thread core ctx
  (s.setThread core ctx { t with slot := { t.slot with soft := if t.pendingX 29#5 then some e else none } }).takeTrap
    core ctx e.cause.1 t.img.pc e.cause.2 false false

/-- One attempt of a context: a deferred cause or the budget first, then the soft error the instruction meets, then the
instruction itself. -/
noncomputable def State.attempt (s : State) (core ctx : Nat) (soft : Option Soft) : Result :=
  let t := s.thread core ctx
  if t.deferredDue then .next (s.takeDeferred core ctx)
  else if ctx = 16 ∧ s.budgetDue core then .next (s.takeBudget core)
  else
    let s := { s.refill core (t.img.pc.toNat / 4 * 4) with cur := (core, ctx) }
    match t.slot.soft.orElse fun _ => soft with
    | some e => .next (s.raiseSoft core ctx e)
    | none => s.executeNext

/-- Would an attempt leave the context waiting at issue? -/
noncomputable def State.waits (s : State) (core ctx : Nat) : Bool :=
  match (s.loadLive core ctx).attempt core ctx none with
  | .next t => (t.thread core ctx).slot.status == .blocked && (t.thread core ctx).slot.wait == .retry
  | _ => false

/-- A context that waits at issue is ready again as soon as its wait has ended (03 R28). -/
noncomputable def State.refresh (s : State) (core ctx : Nat) : State :=
  let t := s.thread core ctx
  if t.slot.status = .blocked ∧ t.slot.wait = .retry ∧ !s.waits core ctx then
    s.setThread core ctx { t with slot := t.slot.wake }
  else s

/-- May a context issue now? The slots of a partition that is being pre-empted are held from step 2 on (23 R335), and a stage whose
decode table is updated issues nothing (29 R415). -/
def State.canIssue (s : State) (core ctx : Nat) : Bool :=
  let v := (s.thread core ctx).slot
  v.status == .ready && (ctx == 16 || !s.slotHeld core ctx) && !s.updating fun u => u == .decode (stageOf core)

/-- The ready resident threads, in the order of issue: cyclic from the slot after the last that issued. -/
def State.candidates (s : State) (core : Nat) : List Nat :=
  ((List.range 16).map fun k => ((s.core core).rr + 1 + k) % 16).filter fun k =>
    (s.thread core k).slot.resident && s.canIssue core k

/-- The context a core issues from (03 R32). -/
def State.pick (s : State) (core : Nat) : Option Nat :=
  let handler := (s.core core).activation.isSome && s.canIssue core 16
  if handler then
    if s.cycle % 64 = 63 then
      match s.candidates core with
      | k :: _ => some k
      | [] => some 16
    else some 16
  else (s.candidates core).head?

/-- A core issues, unless its stage is in no partition (28 R394). -/
noncomputable def State.issue (s : State) (core : Nat) (refetch : Bool) (soft : Option Soft) : Result :=
  if (s.partOf core).isNone then .next s
  else
  let s := if refetch then s.setCore core { s.core core with fetch := none } else s
  match s.pick core with
  | none => .next s
  | some ctx =>
    let s := if ctx = 16 then s else s.setCore core { s.core core with rr := ctx }
    s.attempt core ctx soft

end Sys2Proof.Machine
end

