-- ==== Sys2Proof/Machine/Schedule.lean ====
section
/-!
DEFINITION. Schedule.lean: the default order of the agents, used when the agenda is empty (log 1): the events of the device
and the cores that can issue take turns, each turn starting further on in its list.
-/

namespace Sys2Proof.Machine

/-- The events that a request in flight can bring about. -/
noncomputable def Req.events (r : Req) : List Instr :=
  match r.body with
  | .read _ _ _ _ | .write _ _ _ _ _ | .patch _ _ _ _ => [.mapAccess r.id]
  | .reply _ _ _ => [.loadReply r.id, .rayUnitReply r.id]
  | .divide _ _ => [.divideComplete r.id]
  | .awaited _ _ _ => []
  | .atomic _ => [.messageArrival r.id, .houseAtomic r.id]
  | .atomicReply _ _ _ _ => [.atomicReply r.id]
  | .message _ _ _ => [.messageArrival r.id, .unboundTimeout r.id]
  | .bump _ _ _ | .cadd _ _ _ => [.counterBump r.id]
  | .group _ _ _ => [.groupRequest r.id]
  | .groupAnswer _ _ _ => [.groupAnswer r.id]
  | .spawn _ _ _ _ _ _ => [.spawnRequest r.id]
  | .spawnAnswer _ _ _ _ _ _ _ => [.spawnAnswer r.id]
  | .start _ _ _ => [.startMessage r.id]
  | .scopeMiss _ _ _ _ _ => [.scopeMiss r.id]
  | .post _ _ => [.queueRecordWrite r.id]
  | .pagerPost _ _ _ => [.pgqWrite r.id]
  | .fault _ _ _ _ _ _ => [.faultClimb r.id]
  | .routerWake _ _ _ _ => [.routerWake r.id]
  | .agentWake _ _ _ _ => [.agentWake r.id]
  | .segReturn _ _ _ _ => [.segmentReturn r.id]
  | .miss _ _ _ _ _ => [.translationTimeout r.id]
  | .hostRecord _ _ _ => [.hostLaunchRecord r.id]
  | .completion _ _ _ _ => [.kernelRetire r.id]

/-- The events of one core. -/
noncomputable def State.coreEvents (s : State) (core : Nat) : List Instr :=
  let c := s.core core
  [.ulmAtomic core, .messageDequeue core, .slotSwapComplete core, .blockSwap core, .quantumSwap core, .handlerBudget core,
    .dqEntryStart core, .dqFaultRecordWrite core, .watchdog core] ++
  (c.queues.dq.flatMap fun e => [.dqEntryComplete core e.1, .dqAccessFault core e.1]) ++
  ((List.range 17).flatMap fun k =>
    .deferredTrap core k :: (List.range 4).map fun g => .streamFetch core k g)

/-- The events of one stage. -/
noncomputable def State.stageEvents (s : State) (st : Nat) : List Instr :=
  let g := s.stage st
  ((List.range 4).flatMap fun e => [.taskStart st e, .promotionBlock st e, .taskDrain st e, .taskComplete st e]) ++
  (g.streams.map fun e => .segmentPlay st e.1) ++ [.copyCommandStart st] ++
  (g.commands.flatMap fun e =>
    ((List.range e.2.dests.length).map fun d => .copyDestinationFill st e.1 d) ++ [.copyCommandComplete st e.1]) ++
  g.rays.flatMap fun e => [.walkerStep st e.1, .walkerFetch st e.1]

/-- The events of one die. -/
noncomputable def State.dieEvents (s : State) (d : Nat) : List Instr :=
  [.gateAdmit d, .rampEnd d, .telemetryRecord d] ++
  (s.die d).queues.flatMap fun e =>
    [.rasterRecord d (e.1 / 64) (e.1 % 64), .rasterQueueComplete d (e.1 / 64) (e.1 % 64)]

/-- The events of one partition. -/
noncomputable def State.partEvents (s : State) (p : Nat) : List Instr :=
  let v := s.part p
  ((v.store.map fun e => .headerRead (p * 128 + e.1))) ++
  [.kernelPlacement p, .quiescenceDetected p, .quiesceProbe p, .preemptSave p] ++
  (if v.state = 3#2 then [.restoreCommand p] else []) ++ (v.stages.flatMap s.stageEvents) ++
  (s.coreList p).flatMap fun c => if (s.cores.find c).isSome then s.coreEvents c else []

/-- The events that may come about by themselves. -/
noncomputable def State.events (s : State) : List Instr :=
  (if s.service.boot.started then [] else [.coldStart]) ++ (s.reqs.flatMap Req.events) ++
  (s.kernels.map fun e => .kernelRetire e.1) ++ (s.parts.flatMap fun e => s.partEvents e.1) ++
  ((List.range 4).flatMap s.dieEvents) ++
  (if s.service.update.isSome ∨ !s.service.updates.isEmpty then [.liveUpdate] else []) ++ (s.service.peers.map fun e => .peerRequest e.1) ++
  match s.service.curtain with
  | some c => .curtainFall :: if s.curtainClosed c then s.grade.blocks.map .curtainTimeout else []
  | none => []

/-- Does an event change anything? -/
noncomputable def State.moves (s : State) (i : Instr) : Bool :=
  match exec i s with
  | .next t => t != s
  | _ => false

/-- A list from a position on, and then its beginning. -/
def turned {α : Type} (n : Nat) (l : List α) : List α := l.drop (n % l.length) ++ l.take (n % l.length)

/-- The next event in turn. -/
noncomputable def State.nextEvent (s : State) : Option Mover :=
  ((turned (s.turn / 2) s.events).find? s.moves).map .event

/-- The next core in turn that can issue. -/
def State.nextCore (s : State) : Option Mover :=
  ((turned (s.turn / 2) (s.cores.map Prod.fst)).find? fun c => (s.partOf c).isSome && (s.pick c).isSome).map .issue

/-- The next mover: cores first in even turns, events first in odd ones; time passes where nothing moves. -/
noncomputable def State.defaultChoice (s : State) : Choice :=
  let m := if s.turn % 2 = 0 then s.nextCore.orElse fun _ => s.nextEvent else s.nextEvent.orElse fun _ => s.nextCore
  ⟨m.getD .idle, 1, false, none, []⟩

end Sys2Proof.Machine
end

