-- ==== Sys2Proof/Machine/Step.lean ====
section
/-!
DEFINITION. Step.lean: one step of the device, and the host's way to place an instruction.
-/

namespace Sys2Proof.Machine

/-- Stored bits that flip: a bit that is in error and flips again is right again (27 R385). -/
def State.flip (s : State) (l : List Nat) : State :=
  { s with flips := l.foldl (fun f b => if f.contains b then f.filter (· != b) else insertNat b f) s.flips }

/-- Is a core's partition pre-empted: does a pre-emption, its save or its restore stand (23 R335)? -/
def State.preempted (s : State) (core : Nat) : Bool := (s.partOf core).any fun p => (s.part p).state != 0#2

/-- Of some cycles, those that may pass: none beyond the cycle by which a system handler's write is performed (07 R112). -/
def State.passing (s : State) (n : Nat) : Nat :=
  (s.cores.flatMap fun c =>
    if s.preempted c.1 then [] else c.2.queues.pubs.flatMap fun p => p.pieces.filterMap PubPiece.due).foldl
    (fun n d => Nat.min n (d - s.cycle)) n

/-- The cycles by which a core's handler writes, moved by cycles that do not count. -/
def Core.putOff (c : Core) (n : Nat) : Core :=
  { c with queues := { c.queues with pubs := c.queues.pubs.map fun e =>
      { e with pieces := e.pieces.map fun p => { p with due := p.due.map (· + n) } } } }

/-- Time passes: the starts that a gate holds back are counted (29 R417), the cycles of a pre-emption do not count for the system
handlers (07 R112), and the cycles go on. -/
def State.tick (s : State) (n : Nat) : State :=
  let t := (List.range 4).foldl (fun s d => s.gateTick d n) s
  { t with
    cores := t.cores.map fun c => if t.preempted c.1 then (c.1, c.2.putOff n) else c
    cycle := t.cycle + n }

/-- A core that holds no ready task is not one that should have issued (24 R350). -/
def State.restCore (s : State) (core : Nat) : State :=
  if (s.readyTask core).isSome then s
  else s.setRegs core { (s.core core).regs with lastIssue := s.cycle }

/-- What holds at once after anything has happened: waits that have ended (03 R28), the cores that rest, and the quiet cycles of
the partitions (26 R378) and kernels (R372). -/
noncomputable def State.settle (s : State) : State :=
  let t := s.threads.foldl (fun s e => s.refresh (e.1 / 32) (e.1 % 32)) s
  let t := t.cores.foldl (fun s e => s.restCore e.1) t
  let t := t.parts.foldl (fun s e => s.track e.1) t
  t.kernels.foldl (fun s e => s.trackKernel e.1 e.2) t

/-- A step's result, settled. -/
noncomputable def settled (r : Result) : Result :=
  match r with
  | .next s => .next s.settle
  | o => o

/-- May an event come about by itself? An encoded instruction, or a word that is none, is executed only where a core issues
it. -/
def isEvent (i : Instr) : Bool :=
  match i with
  | .illegalInstruction => false
  | i => (encode i).isNone

/-- One entry of the agenda is carried out. -/
noncomputable def State.run (s : State) (c : Choice) : Result :=
  let s := (s.flip c.flips).tick (s.passing c.cycles)
  settled (match c.mover with
    | .idle => .next s
    | .event i => if isEvent i then exec i s else .next s
    | .issue core => s.issue core c.refetch c.soft)

/-- One step: the agenda's next entry, or with an empty agenda the default order's (log 1). -/
noncomputable def step (s : State) : Host.Outcome State Fault Refusal :=
  match s.agenda with
  | c :: rest => { s with agenda := rest }.run c
  | [] => { s with turn := s.turn + 1 }.run s.defaultChoice

/-- The state with an instruction's bytes at ULM offset 0 of core 0, slot 0 of that core about to issue it, and stage 0 in
partition 0 where it is in none (log 6). -/
def State.withFetchWord (s : State) (nbits w : Nat) : State :=
  let s := if (s.partOf 0).isSome then s else s.setPart 0 { s.part 0 with stages := 0 :: (s.part 0).stages }
  let s := s.writeBytes (ulmAddr 0 0) (bytesOfBits (w % 2 ^ nbits))
  let t := s.thread 0 0
  let s := s.setThread 0 0
    { img := { t.img with pc := 0#18 }
      slot := { t.slot with status := .ready, wait := .retry, resident := true, held := false, deferred := [], soft := none } }
  let s := if (s.stage 0).halted < 2 then s else s.setStage 0 { s.stage 0 with halted := 0 }
  let s := if s.updating fun u => u == .decode 0 then { s with service := { s.service with update := none } } else s
  let c := s.core 0
  { s.setCore 0 { c with fetch := none, activation := none, rr := 15, regs := { c.regs with preStat := 0#2 } } with
    agenda := ⟨.issue 0, 1, false, none, []⟩ :: s.agenda }

end Sys2Proof.Machine
end

