-- ==== Sys2Proof/Safety.lean ====
section
/-!
DEFINITION. Safety.lean: the terms claims are stated in: a memory in its canonical form, registers that can be read and
written, and the state in which an instruction completes.
-/

namespace Sys2Proof.Machine

/-! ## What holds of every state a run reaches -/

/-- The two memories stand in their canonical form. -/
def State.memoryOk (s : State) : Prop := Memory.wf s.mem = true ∧ Memory.wf s.dram = true

/-! ## Sources and destinations (04 R44, R52, R54) -/

/-- A register of the context (x0 to x31, and v0 to v15 from 32 on) may be read as far as order goes: where a window wrote it the
read is an r event, which the fences in force allow (07 R97, R101). -/
def State.ordered (s : State) (r : Nat) : Prop := s.img.isWindowed r = true → s.fenceWaits .r = []

/-- A register that a source field can read now: full or x0, or bound to a reading stream that has an element. -/
def State.readable (s : State) (r : XName) : Prop :=
  match s.img.genOf r with
  | some k => (s.img.gens[k]).append = false ∧ (s.img.gens[k]).fetched ≠ []
  | none => (r = 0#5 ∨ (s.img.x[r.toFin]).full = true) ∧ s.ordered r.toNat

/-- A register that no generator serves. -/
def Context.unbound (c : Context) (r : XName) : Prop := c.genOf r = none

/-- A destination that takes its result in the register itself: unbound, and full or x0. -/
def Context.writable (c : Context) (d : XName) : Prop := c.unbound d ∧ (d = 0#5 ∨ (c.x[d.toFin]).full = true)

/-- The 64-bit value a register gives as a source. -/
def Context.word (c : Context) (r : XName) : Word := Quad.low (c.sourceVal r).val

/-- The context after one element is popped from the stream bound to a register; an unbound register pops nothing, and a window
write that it holds is now read. -/
def Context.popped (c : Context) (r : XName) : Context :=
  match c.genOf r with
  | some k =>
    let g := c.gens[k]
    { c with gens := c.gens.set k { g with fetched := g.fetched.tail, pos := g.pos + BitVec.ofNat 32 (2 ^ g.esize.toNat) } }
  | none => c.unwindow r.toNat

/-- The state after a source field is read: nothing changes where there is neither an element nor a window write. -/
def State.pop (s : State) (r : XName) : State :=
  if s.img.genOf r = none ∧ s.img.isWindowed r.toNat = false then s else s.setImg (s.img.popped r)

/-- The context after two source fields are read: one pop however many fields name a register. -/
def Context.popped2 (c : Context) (a b : XName) : Context := if a = b then c.popped a else (c.popped a).popped b

/-- The state after two source fields are read. -/
def State.pop2 (s : State) (a b : XName) : State := if a = b then s.pop a else (s.pop a).pop b

/-- The context after three source fields are read, in this order. -/
def Context.popped3 (c : Context) (d a b : XName) : Context :=
  let e := c.popped2 d a
  if b = d ∨ b = a then e else e.popped b

/-- The context with a register written: full, with the value and tag; x0 discards the write. -/
def Context.put (c : Context) (d : XName) (v : Quad) (tag : Bool) : Context :=
  if d = 0#5 then c else ({ c with x := c.x.set d.toFin ⟨v, tag, true⟩ } : Context).unwindow d.toNat

/-- The context with a 64-bit result written: the upper 64 bits zero, untagged. -/
def Context.putWord (c : Context) (d : XName) (v : Word) : Context := c.put d (v.setWidth 128) false

/-- The context with a register marked empty; x0 never is. -/
def Context.emptied (c : Context) (d : XName) : Context :=
  let r := c.x[d.toFin]
  if d = 0#5 then c else ({ c with x := c.x.set d.toFin { r with full := false } } : Context).unwindow d.toNat

/-! ## How an instruction ends (08 R140, 03 R42, R43) -/

/-- s's current instruction completes in sequence, its effects being those of t: the loop test at its pc, the next pc, a ready
slot, and one more instruction issued. -/
def State.completes (s t : State) : State :=
  (t.retireTo s.cur.1 s.cur.2 (s.nextPc s.cur.1 s.img.pc)).countIssue s.cur.1 s.cur.2

/-- It completes as a taken transfer. -/
def State.jumps (s t : State) (pc : Ulm) : State := (t.retireJump s.cur.1 s.cur.2 pc).countIssue s.cur.1 s.cur.2

/-- It holds at its own pc until its answer comes. -/
def State.rests (s t : State) (w : Wait) : State := (t.block s.cur.1 s.cur.2 w).countIssue s.cur.1 s.cur.2

/-- It waits at issue, with nothing changed; an activation's first instruction starts its budget count (03 R24). -/
def State.stalls (s : State) : State := (s.block s.cur.1 s.cur.2 .retry).startCount s.cur.1 s.cur.2

/-- It traps precisely, with nothing else changed. -/
def State.traps (s : State) (cause : BitVec 7) (addr : Word) : State := s.raise s.cur.1 s.cur.2 cause addr false

end Sys2Proof.Machine
end

