-- ==== Sys2Proof/Claims/Access.lean ====
section
/-!
DEFINITION. Access.lean: when an access reaches the core's own ULM, and where (04 R46, R49, 06 R78, 10 R181), and the elements
of appending streams (04 R54, 10 R184).
-/

namespace Sys2Proof.Claims

open Sys2Proof.Machine

/-- The ULM offset that an access of n bytes at cursor + off names, through a linear capability with G = 0 that passes every
check of R181: tag, kind, permission (L or S, and C where a tag moves), bounds, alignment, and the wings in user mode. -/
def localOffset (m : Mode) (r : XReg) (load tags : Bool) (off : Int) (n : Nat) : Option Nat :=
  let q := r.val
  let o : Int := (Quad.offset q).toNat + off
  let a : Int := (Quad.cursor q).toNat + off
  let payload := load = true ∧ Quad.hasS q = false ∧ 0x3F700 ≤ (Quad.base q).toNat ∧
    (Quad.base q).toNat + (Quad.length q).toNat ≤ 0x3F800
  if r.tag = true ∧ Quad.kind q = 0#2 ∧ Quad.hasG q = false ∧
      (if load then Quad.hasL q = true else Quad.hasS q = true) ∧ (tags = true → Quad.hasC q = true) ∧
      0 ≤ o ∧ o + n ≤ (Quad.length q).toNat ∧ 0 ≤ a ∧ a + n ≤ 0x40000 ∧ a % n = 0 ∧
      (m ≠ .user ∨ a + n ≤ 0x38000 ∨ payload)
  then some a.toNat else none

/-- Nothing earlier holds back an access of n bytes at a ULM offset: no fence (07 R101), no atomic or late append of the task to its
own ULM (R102), no request of the task in flight to the same bytes (R103), and for a store no want of a publication entry (R112)
and no gather that is still to read its index list there (10 R188). -/
def clear (s : State) (c : Cls) (off n : Nat) : Prop :=
  s.fenceWaits c = [] ∧ s.nearEvents = [] ∧ s.sameLocation (ulmAddr s.cur.1 off) n = [] ∧
    (c = .w → s.mayPublish = true ∧ s.listHeld (ulmAddr s.cur.1 off) n none = false)

/-- The appending generator bound to d and the ULM offset of its next element, where every check of the element passes. -/
def nextElement (c : Context) (d : XName) : Option (Fin 4 × Nat) :=
  match c.genOf d with
  | none => none
  | some k =>
    let g := c.gens[k]
    if g.append = true then (localOffset c.mode (g.at g.pos) false false 0 (2 ^ g.esize.toNat)).map fun off => (k, off) else none

/-- The state in which generator k of the context c has stored the low bytes of v at its element, at a ULM offset. -/
def element (s : State) (c : Context) (k : Fin 4) (off : Nat) (v : Word) : State :=
  let g := c.gens[k]
  let n := 2 ^ g.esize.toNat
  (s.setImg { c with gens := c.gens.set k { g with pos := g.pos + BitVec.ofNat 32 n } }).writeBytes (ulmAddr s.cur.1 off)
    (bytesOfNat n v.toNat)

/-- A destination bound to an appending generator whose next element can be stored now. -/
def appends (s : State) (d : XName) (k : Fin 4) (off : Nat) : Prop :=
  nextElement s.img d = some (k, off) ∧ (s.img.gens[k]).pending.length < Gen.room ∧
    clear s .w off (2 ^ (s.img.gens[k]).esize.toNat)

/-- The destination of a late value in the element that generator k of the context c reserves at a ULM offset of the own core
(04 R54): it is stored after what the fences, the accesses to its bytes and the task's accesses by other paths order before it. -/
def reservedDest (s : State) (c : Context) (k : Fin 4) (off bytes : Nat) (signed quad : Bool) : Dest :=
  let n := 2 ^ (c.gens[k]).esize.toNat
  let a := ulmAddr s.cur.1 off
  .append ⟨k.val, a, true, n, bytes, signed, quad, none, s.nextId, s.fenceWaits .w ++ s.sameLocation a n ++ s.nearEvents⟩

/-- The state in which generator k of the context c has reserved its next element. -/
def reservedState (s : State) (c : Context) (k : Fin 4) : State :=
  let g := c.gens[k]
  { s.setImg { c with gens := c.gens.set k { g with
      pos := g.pos + BitVec.ofNat 32 (2 ^ g.esize.toNat), pending := g.pending ++ [s.nextId] } } with nextId := s.nextId + 1 }

end Sys2Proof.Claims
end

