-- ==== Sys2Proof/Claims/Mem.lean ====
section
/-!
DEFINITION. Mem.lean: the loads and stores as the tables of spec/10_memory_messages_sync.md give them (R130 of spec/08, R177,
R179, R180), and the values they move.
-/

namespace Sys2Proof.Claims

open Sys2Proof.Machine

/-- A load: its destination, its base, the bytes n, and how the value fills the register: sign-extended, or whole (`lq`). -/
structure Load where
  d : XName
  base : Src
  n : Nat
  signed : Bool
  quad : Bool

/-- A store: its base, its data, the bytes n, and whether the tag moves too (`sq`). -/
structure Store where
  base : Src
  data : Src
  n : Nat
  quad : Bool

/-- The plain loads, with the offset in bytes (R177, 08 R136). -/
def load : Instr → Option (Load × Int)
  | .lb d a i => some (⟨d, a, 1, true, false⟩, i.toInt)
  | .lh d a i => some (⟨d, a, 2, true, false⟩, 2 * i.toInt)
  | .lw d a i => some (⟨d, a, 4, true, false⟩, 4 * i.toInt)
  | .ld d a i => some (⟨d, a, 8, false, false⟩, 8 * i.toInt)
  | .lbu d a i => some (⟨d, a, 1, false, false⟩, i.toInt)
  | .lhu d a i => some (⟨d, a, 2, false, false⟩, 2 * i.toInt)
  | .lwu d a i => some (⟨d, a, 4, false, false⟩, 4 * i.toInt)
  | .lq d a i => some (⟨d, a, 16, false, true⟩, 16 * i.toInt)
  | .cLw a b i => some (⟨a.setWidth 5 + 8#5, ⟨b.setWidth 5 + 8#5, false⟩, 4, true, false⟩, 4 * (i.toNat : Int))
  | _ => none

/-- The post-increment loads, with the step in bytes (R180). -/
def loadStep : Instr → Option (Load × Int)
  | .lbPostinc d a i => some (⟨d, a, 1, true, false⟩, i.toInt)
  | .lhPostinc d a i => some (⟨d, a, 2, true, false⟩, 2 * i.toInt)
  | .lwPostinc d a i => some (⟨d, a, 4, true, false⟩, 4 * i.toInt)
  | .ldPostinc d a i => some (⟨d, a, 8, false, false⟩, 8 * i.toInt)
  | .lbuPostinc d a i => some (⟨d, a, 1, false, false⟩, i.toInt)
  | .lhuPostinc d a i => some (⟨d, a, 2, false, false⟩, 2 * i.toInt)
  | .lwuPostinc d a i => some (⟨d, a, 4, false, false⟩, 4 * i.toInt)
  | .lqPostinc d a i => some (⟨d, a, 16, false, true⟩, 16 * i.toInt)
  | _ => none

/-- The plain stores, with the offset in bytes (R179, 08 R136). -/
def store : Instr → Option (Store × Int)
  | .sb a b i => some (⟨a, b, 1, false⟩, i.toInt)
  | .sh a b i => some (⟨a, b, 2, false⟩, 2 * i.toInt)
  | .sw a b i => some (⟨a, b, 4, false⟩, 4 * i.toInt)
  | .sd a b i => some (⟨a, b, 8, false⟩, 8 * i.toInt)
  | .sq a b i => some (⟨a, b, 16, true⟩, 16 * i.toInt)
  | .cSw a b i => some (⟨⟨b.setWidth 5 + 8#5, false⟩, ⟨a.setWidth 5 + 8#5, false⟩, 4, false⟩, 4 * (i.toNat : Int))
  | _ => none

/-- The post-increment stores, with the step in bytes (R180). -/
def storeStep : Instr → Option (Store × Int)
  | .sbPostinc a b i => some (⟨a, b, 1, false⟩, i.toInt)
  | .shPostinc a b i => some (⟨a, b, 2, false⟩, 2 * i.toInt)
  | .swPostinc a b i => some (⟨a, b, 4, false⟩, 4 * i.toInt)
  | .sdPostinc a b i => some (⟨a, b, 8, false⟩, 8 * i.toInt)
  | .sqPostinc a b i => some (⟨a, b, 16, true⟩, 16 * i.toInt)
  | _ => none

/-- The number that bytes hold, the lowest address first (00 R3). -/
def little : List Byte → Nat
  | [] => 0
  | b :: bs => b.toNat + 256 * little bs

/-- What n bytes give a register (R177). -/
def Load.value (l : Load) (bs : List Byte) : Quad :=
  if l.quad then BitVec.ofNat 128 (little bs)
  else if l.signed then
    (BitVec.ofInt 64 (if little bs < 2 ^ (8 * l.n - 1) then (little bs : Int) else (little bs : Int) - 2 ^ (8 * l.n))).setWidth 128
  else BitVec.ofNat 128 (little bs)

/-- The i-th byte from below of a register's value. -/
def lowByte (v : Quad) (i : Nat) : Byte := v.extractLsb' (8 * i) 8

/-- The low n bytes of a register's value, as they stand in memory (00 R3). -/
def Store.bytes (t : Store) (v : Quad) : List Byte := (List.range t.n).map (lowByte v)

/-- The base of a post-increment access after it: the cursor stepped by `cinci`, the tag kept. -/
def stepped (c : Context) (a : XName) (r : XReg) (step : Int) : Context := c.put a (capStep r.val step) r.tag

/-- The map address that an access of n bytes at cursor + off names where every check of R181 passes and it is not to the
core's own ULM. -/
def goesThroughMap (s : State) (r : XReg) (need : Need) (off : Int) (n adr : Nat) : Prop :=
  accessCheck r need off n n s = .ok (.map adr, s)

/-- The bank whose register a map store of these bytes would give a format that 06 R93 refuses. -/
def refusedBank (s : State) (adr : Nat) (bs : List Byte) : Option Nat :=
  match windowOf s.grade adr bs.length with
  | .control core off => (s.core core).bankRefused off (bs.map some)
  | _ => none

end Sys2Proof.Claims
end

