-- ==== Sys2Proof/Claims/Atomic.lean ====
section
/-!
DEFINITION. Atomic.lean: the atomics by the table of 10 R195 and 16 R303, and what they write.
-/

namespace Sys2Proof.Claims

open Sys2Proof.Machine

/-- Operation, bytes, destination, address, operand and trigger class of an atomic; `radd` has no destination (R195, R199). -/
def atomic : Instr → Option (AOp × Nat × XName × Src × Src × BitVec 6)
  | .aadd d a b z => some (.add, if z then 8 else 4, d, a, b, 0#6)
  | .aand d a b z => some (.and, if z then 8 else 4, d, a, b, 0#6)
  | .aor d a b z => some (.or, if z then 8 else 4, d, a, b, 0#6)
  | .axor d a b z => some (.xor, if z then 8 else 4, d, a, b, 0#6)
  | .amin d a b z => some (.min, if z then 8 else 4, d, a, b, 0#6)
  | .amax d a b z => some (.max, if z then 8 else 4, d, a, b, 0#6)
  | .aminu d a b z => some (.minu, if z then 8 else 4, d, a, b, 0#6)
  | .amaxu d a b z => some (.maxu, if z then 8 else 4, d, a, b, 0#6)
  | .aswp d a b z => some (.swap, if z then 8 else 4, d, a, b, 0#6)
  | .acas d a b z => some (.cas, if z then 8 else 4, d, a, b, 0#6)
  | .afadd d a b z => some (.fadd, if z then 8 else 4, d, a, b, 0#6)
  | .afmin d a b z => some (.fmin, if z then 8 else 4, d, a, b, 0#6)
  | .afmax d a b z => some (.fmax, if z then 8 else 4, d, a, b, 0#6)
  | .radd a b z => some (.radd, if z then 8 else 4, 0#5, a, b, 0#6)
  | .aaddTz d a b k => if k = 0#6 then none else some (.add, 8, d, a, b, k)
  | .raddTz a b k => if k = 0#6 then none else some (.radd, 8, 0#5, a, b, k)
  | .vbmin d a b => some (.vbmin, 16, d, a, b, 0#6)
  | _ => none

/-- The w-bit two's complement number. -/
def ofBits (w n : Nat) : Int := if n < 2 ^ (w - 1) then (n : Int) else (n : Int) - 2 ^ w

/-- What an integer atomic of w bits writes over `old` with the operand v, `old` itself where it writes nothing (R195). -/
def newWord (op : AOp) (w old v expect : Nat) : Nat :=
  match op with
  | .add | .radd => (old + v) % 2 ^ w
  | .and => old &&& v
  | .or => old ||| v
  | .xor => old ^^^ v
  | .min => if ofBits w old ≤ ofBits w v then old else v
  | .max => if ofBits w old ≤ ofBits w v then v else old
  | .minu => min old v
  | .maxu => max old v
  | .swap => v
  | .cas => if old = expect then v else old
  | _ => old

/-- The ordered key of an FP32 depth (16 R302). -/
def depthKey (f : BitVec 32) : Nat :=
  let f := if f = 0x80000000#32 then 0#32 else f
  if f.getLsbD 31 then (~~~f).toNat else f.toNat + 2 ^ 31

/-- An FP32 NaN. -/
def isNaN32 (f : BitVec 32) : Bool := (f &&& 0x7F800000#32) == 0x7F800000#32 && (f &&& 0x7FFFFF#32) != 0#32

/-- `vb_wins`: does the candidate c replace the stored sample s (16 R301, R302)? -/
def winsSample (c s : Quad) : Prop :=
  let depth (q : Quad) : BitVec 32 := q.extractLsb' 0 32
  let name (q : Quad) : Nat := (q.extractLsb' 64 64).toNat
  isNaN32 (depth c) = false ∧ (isNaN32 (depth s) = true ∨ depthKey (depth c) < depthKey (depth s) ∨
    (depthKey (depth c) = depthKey (depth s) ∧ name c < name s))

/-- The sample that a winner is stored as: depth -0.0 becomes +0.0. -/
def storedSample (c : Quad) : Quad :=
  if c.extractLsb' 0 32 = 0x80000000#32 then c.extractLsb' 32 96 ++ 0#32 else c

/-- What an atomic of w bits other than `vbmin` writes over `old` with the operand v, and the flags its reply brings (R195, R198). -/
def written (op : AOp) (w old v expect : Nat) : Nat × FpFlags :=
  let f : Fmt := if w = 64 then .fp64 else .fp32
  match op with
  | .fadd => f.add .rne old v
  | .fmin => f.minMax false old v
  | .fmax => f.minMax true old v
  | _ => (newWord op w old v expect, 0#5)

/-- The state after a new value is written by an atomic of a trigger class: a 0 of a class that is not 0 sends the message of 03 R25
to the core that starts the activation (R199). -/
def triggers (s : State) (core : Nat) (cls : BitVec 6) (addr new : Nat) : State :=
  let m : Msg := ⟨cls.setWidth 8, 0x3FFF#14, [BitVec.ofNat 32 addr, BitVec.ofNat 32 (addr / 2 ^ 32 % 2 ^ 25)], false⟩
  if cls ≠ 0#6 ∧ new = 0 then (s.sent core).push { Req.device core (.message core m none) with place := .core core } else s

end Sys2Proof.Claims
end

