-- ==== Sys2Proof/Claims/Cap.lean ====
section
/-!
DEFINITION. Cap.lean: the results of the capability instructions as 09 R153 to R160 state them, field by field.
-/

namespace Sys2Proof.Claims

open Sys2Proof.Machine

/-- Kinds 00 and 01, tagged: what most capability instructions accept (R153). -/
def accepted (r : XReg) : Prop := r.tag = true ∧ (Quad.kind r.val = 0#2 ∨ Quad.kind r.val = 1#2)

/-- The linear capability with these fields (04 R46). -/
def isLinear (q : Quad) (perms : BitVec 6) (base length offset : Nat) : Prop :=
  Quad.kind q = 0#2 ∧ Quad.perms q = perms ∧ (Quad.base q).toNat = base ∧ (Quad.length q).toNat = length ∧
    (Quad.offset q).toNat = offset

/-- A mesh capability with the rectangle and permissions of c (04 R47), its slice and its cursor. -/
def isMesh (q : Quad) (c : Mesh) (sliceBase sliceLen col row off : Nat) : Prop :=
  let m := Mesh.ofQuad q
  Quad.kind q = 1#2 ∧ m.perms = c.perms ∧ m.baseCol = c.baseCol ∧ m.baseRow = c.baseRow ∧ m.cols = c.cols ∧ m.rows = c.rows ∧
    m.sliceBase.toNat = sliceBase ∧ m.sliceLen.toNat = sliceLen ∧ m.col.toNat = col ∧ m.row.toNat = row ∧ m.off.toNat = off ∧
    q.extractLsb' 0 24 = 0#24

/-- The capability q with its cursor stepped (R156, 04 R48). -/
def isStepped (q q' : Quad) (step : Int) : Prop :=
  let c := Mesh.ofQuad q
  if Quad.kind q = 1#2 then
    if c.sliceLen = 0#18 then isMesh q' c c.sliceBase.toNat 0 c.col.toNat c.row.toNat c.off.toNat
    else
      let p : Int := (c.off.toNat : Int) - c.sliceBase.toNat + step
      let k : Int := (c.col.toNat : Int) - c.baseCol.toNat + p / (c.sliceLen.toNat : Int)
      let ncol : Int := if c.cols = 0#7 then 128 else c.cols.toNat
      isMesh q' c c.sliceBase.toNat c.sliceLen.toNat (((c.baseCol.toNat : Int) + k % ncol) % 128).toNat
        (((c.row.toNat : Int) + k / ncol) % 128).toNat (((c.sliceBase.toNat : Int) + p % (c.sliceLen.toNat : Int)) % 2 ^ 18).toNat
  else
    q'.extractLsb' 32 96 = q.extractLsb' 32 96 ∧ (Quad.offset q').toNat = ((((Quad.offset q).toNat : Int) + step) % 2 ^ 32).toNat

/-- The number of the first check of R49 that an access fails, or 0 (R158). -/
def firstFailure (r : XReg) (need : BitVec 6) (n : Nat) : Nat :=
  let q := r.val
  let c := Mesh.ofQuad q
  let ncol := if c.cols = 0#7 then 128 else c.cols.toNat
  if r.tag = false then 1
  else if Quad.kind q = 2#2 ∨ Quad.kind q = 3#2 then 2
  else if (need &&& 62#6) &&& ~~~Quad.perms q ≠ 0#6 then 3
  else if Quad.kind q = 0#2 ∧ ¬ ((Quad.offset q).toNat + n ≤ (Quad.length q).toNat ∧
      (Quad.cursor q).toNat + n ≤ if Quad.hasG q then 2 ^ 37 else 0x40000) then 4
  else if Quad.kind q = 1#2 ∧ ¬ (c.baseCol ≤ c.col ∧ c.col.toNat < c.baseCol.toNat + ncol ∧ c.baseRow ≤ c.row ∧
      c.row.toNat < c.baseRow.toNat + c.rows.toNat ∧ c.sliceBase ≤ c.off ∧
      c.off.toNat + n ≤ c.sliceBase.toNat + c.sliceLen.toNat ∧ c.sliceBase.toNat + c.sliceLen.toNat ≤ 0x40000) then 5
  else 0

/-- The field that `cget` reads (R160). -/
def field (r : XReg) (f : Nat) : Nat :=
  let q := r.val
  let c := Mesh.ofQuad q
  let k := (Quad.kind q).toNat
  if f = 0 then k
  else if f = 15 then (if r.tag then 1 else 0)
  else if k = 3 then 0
  else if f = 1 then (Quad.perms q).toNat
  else if k = 1 then
    [0, 0, 0, 0, 0, 0, c.baseCol.toNat, c.baseRow.toNat, c.sliceBase.toNat, c.sliceLen.toNat, c.cols.toNat, c.rows.toNat,
      c.col.toNat, c.row.toNat, c.off.toNat].getD f 0
  else
    [0, 0, (Quad.base q).toNat, (Quad.length q).toNat, (Quad.offset q).toNat,
      ((Quad.base q).toNat + (Quad.offset q).toNat) % 2 ^ 57].getD f 0

/-- The status word of a generator (10 R186), from bit 0 upwards. -/
def statusOf (g : Gen) : Nat :=
  if g.bound then
    g.reg.toNat + (if g.append then 4 else 0) + 8 * g.esize.toNat +
      32 * (if g.append then g.pending.length else g.fetched.length) + 256 * g.pos.toNat + 2 ^ 40
  else 0

end Sys2Proof.Claims
end

