-- ==== Sys2Proof/Claims/Control.lean ====
section
/-!
DEFINITION. Control.lean: the branches and jumps as spec/09_scalar_and_control.md and the compact forms of spec/08 give them.
-/

namespace Sys2Proof.Claims

open Sys2Proof.Machine

/-- The comparison of a cond code (08 R131), over the integers the words stand for; none for a reserved code. -/
def condition (c : BitVec 3) (x y : Word) : Option Bool :=
  if c = 0#3 then some (decide (x = y))
  else if c = 1#3 then some (decide (x ≠ y))
  else if c = 4#3 then some (decide (x.toInt < y.toInt))
  else if c = 5#3 then some (decide (y.toInt ≤ x.toInt))
  else if c = 6#3 then some (decide (x.toNat < y.toNat))
  else if c = 7#3 then some (decide (y.toNat ≤ x.toNat))
  else none

/-- The cond code, the sources and the offset in halfwords of a branch (R161, R163, 08 R136). -/
def branch : Instr → Option (BitVec 3 × Src × Src × Int)
  | .beq a b o => some (0#3, a, b, o.toInt)
  | .bne a b o => some (1#3, a, b, o.toInt)
  | .blt a b o => some (4#3, a, b, o.toInt)
  | .bge a b o => some (5#3, a, b, o.toInt)
  | .bltu a b o => some (6#3, a, b, o.toInt)
  | .bgeu a b o => some (7#3, a, b, o.toInt)
  | .bL c a b o => some (c, a, b, o.toInt)
  | .cBeqz a o => some (0#3, ⟨a.setWidth 5 + 8#5, false⟩, ⟨0#5, false⟩, o.toInt)
  | .cBnez a o => some (1#3, ⟨a.setWidth 5 + 8#5, false⟩, ⟨0#5, false⟩, o.toInt)
  | _ => none

/-- wrap(pc + 2 * offset, 18). -/
def away (pc : Ulm) (o : Int) : Ulm := BitVec.ofInt 18 ((pc.toNat : Int) + 2 * o)

/-- The link register and the register a jump reads: `jr`, `jalr`, `c.ret`. -/
def jumpsBy : Instr → Option (XName × Src)
  | .jr a => some (0#5, a)
  | .jalr d a => some (d, a)
  | .cRet => some (0#5, ⟨1#5, false⟩)
  | _ => none

/-- The link register and the offset of a jump: `jal`, `c.j`. -/
def jumpsAway : Instr → Option (XName × Int)
  | .jal d o => some (d, o.toInt)
  | .cJ o => some (0#5, o.toInt)
  | _ => none

/-- Where a jump through a register goes (R164): an untagged value's low 18 bits; the cursor of a tagged linear capability or
sealed entry with G = 0 and X whose next two bytes lie inside its bounds and inside ULM. -/
def target (r : XReg) : Option Ulm :=
  let q := r.val
  if r.tag = false then some (q.setWidth 18)
  else if (Quad.kind q = 0#2 ∨ Quad.kind q = 2#2) ∧ Quad.hasG q = false ∧ Quad.hasX q = true ∧
      (Quad.offset q).toNat + 2 ≤ (Quad.length q).toNat ∧ (Quad.cursor q).toNat + 2 ≤ 0x40000
  then some ((Quad.cursor q).setWidth 18) else none

/-- The control instructions that may not stand at a loop's end (03 R43), with legal operands. -/
def control : Instr → Bool
  | .beq _ _ _ | .bne _ _ _ | .blt _ _ _ | .bge _ _ _ | .bltu _ _ _ | .bgeu _ _ _ | .jal _ _ | .jr _ | .jalr _ _ | .done |
    .yield | .trap _ | .cBeqz _ _ | .cBnez _ _ | .cJ _ | .cDone | .cRet => true
  | .bL c _ _ _ => c ≠ 2#3 && c ≠ 3#3
  | _ => false

/-- The end of the loop that a count of dist halfwords from pc names. -/
def loopEnd (pc : Ulm) (dist : BitVec 11) : Ulm := BitVec.ofNat 18 (pc.toNat + 2 * dist.toNat)

end Sys2Proof.Claims
end

