-- ==== Sys2Proof/Claims/Fp.lean ====
section
/-!
DEFINITION. Fp.lean: the scalar floating-point instructions by the tables of 11 R211 and R217: their registers, their rounding
field, and the value and flags they give.
-/

namespace Sys2Proof.Claims

open Sys2Proof.Machine

/-- A floating-point instruction in a context: its destination and sources, its rounding field (0 for none), and the bits and
flags it gives in a rounding mode. -/
structure FpForm where
  d : XName
  a : Src
  b : Option Src
  rm : BitVec 3
  result : Rnd → Nat × FpFlags

/-- The format of a type code (R210). -/
def formatOf (t : BitVec 2) : Fmt := [Fmt.bf16, .fp16, .fp32, .fp64].getD t.toNat .fp64

/-- The low bits of a register that hold a number of a format (R212). -/
def operand (c : Context) (f : Fmt) (r : XName) : Nat := (c.sourceVal r).val.toNat % 2 ^ f.width

/-- The FP format of a code of R217, and whether it is a saturating one. -/
def codeOf (c : BitVec 3) : Fmt × Bool :=
  [(Fmt.fp64, false), (.fp32, false), (.fp16, false), (.bf16, false), (.e4m3, true), (.e4m3, false), (.e5m2, false),
    (.e5m2, true)].getD c.toNat (.fp64, false)

/-- The width of an integer code of R217, and whether it is signed. -/
def integerOf (c : BitVec 3) : Nat × Bool :=
  [(64, true), (32, true), (16, true), (8, true), (64, false), (32, false), (16, false), (8, false)].getD c.toNat (64, true)

/-- Two operands of one type. -/
def two (c : Context) (d : XName) (a b : Src) (t : BitVec 2) (r : BitVec 3) (f : Fmt → Rnd → Nat → Nat → Nat × FpFlags) :
    Option FpForm :=
  let k := formatOf t
  some ⟨d, a, some b, r, fun m => f k m (operand c k a.reg) (operand c k b.reg)⟩

/-- The sign of s1 replaced (R211); s1's other bits stay. -/
def signed' (k : Fmt) (x : Nat) (s : Bool) : Nat := x % 2 ^ (k.width - 1) + if s then 2 ^ (k.width - 1) else 0

def fpForm (c : Context) : Instr → Option FpForm
  | .fadd d a b t r => two c d a b t r fun k m x y => k.add m x y
  | .fsub d a b t r => two c d a b t r fun k m x y => k.sub m x y
  | .fmul d a b t r => two c d a b t r fun k m x y => k.mul m x y
  | .fdiv d a b t r => two c d a b t r fun k m x y => k.div m x y
  | .fsqrt d a t r => some ⟨d, a, none, r, fun m => (formatOf t).sqrt m (operand c (formatOf t) a.reg)⟩
  | .fma d a b t r => two c d a b t r fun k m x y => k.fma m false x y (operand c k d)
  | .fnma d a b t r => two c d a b t r fun k m x y => k.fma m true x y (operand c k d)
  | .fmin d a b t => two c d a b t 0#3 fun k _ x y => k.minMax false x y
  | .fmax d a b t => two c d a b t 0#3 fun k _ x y => k.minMax true x y
  | .fcmp d a b t => two c d a b t 0#3 fun k _ x y =>
      let u := k.unpack x
      let v := k.unpack y
      (if u.isNaN || v.isNaN then 8 else if u.cmp v = .lt then 1 else if u.cmp v = .eq then 2 else 4,
        if u.isSNaN || v.isSNaN then 0b10000#5 else 0#5)
  | .fclass d a t => some ⟨d, a, none, 0#3, fun _ => ((formatOf t).classOf (operand c (formatOf t) a.reg), 0#5)⟩
  | .fmvxJ d a b t => two c d a b t 0#3 fun k _ x y => (signed' k x (y.testBit (k.width - 1)), 0#5)
  | .fmvxN d a b t => two c d a b t 0#3 fun k _ x y => (signed' k x (!y.testBit (k.width - 1)), 0#5)
  | .fmvxX d a b t => two c d a b t 0#3 fun k _ x y =>
      (signed' k x (x.testBit (k.width - 1) != y.testBit (k.width - 1)), 0#5)
  | .fcvt d a p q r =>
      if q = 5#3 ∨ q = 7#3 then none
      else some ⟨d, a, none, r, fun m => (codeOf p).1.round (codeOf p).2 m ((codeOf q).1.unpack (c.sourceVal a.reg).val.toNat)⟩
  | .fcvtInt d a p q r =>
      if q = 5#3 ∨ q = 7#3 then none
      else some ⟨d, a, none, r, fun m =>
        let o := ((codeOf q).1.unpack (c.sourceVal a.reg).val.toNat).toInt (integerOf p).1 (integerOf p).2 m
        ((o.1 % (2 ^ (integerOf p).1 : Nat)).toNat, o.2.1)⟩
  | .fcvtf d a p q r => some ⟨d, a, none, r, fun m =>
      let w := integerOf q
      let n := (c.sourceVal a.reg).val.toNat % 2 ^ w.1
      (codeOf p).1.round (codeOf p).2 m (FVal.ofInt (if w.2 && decide (2 ^ (w.1 - 1) ≤ n) then (n : Int) - 2 ^ w.1 else n))⟩
  | _ => none

/-- The rounding mode of an rm field (05 R66): 111 takes the dynamic mode of `fp.ctrl`. -/
def modeOf (c : Context) (rm : BitVec 3) : Option Rnd :=
  let k := if rm = 7#3 then c.fpCtrl.extractLsb' 0 3 else rm
  [some Rnd.rne, some .rtz, some .rdn, some .rup].getD k.toNat none

/-- The instructions that read their destination as the addend (R213). -/
def addend : Instr → Bool
  | .fma _ _ _ _ _ | .fnma _ _ _ _ _ => true
  | _ => false

/-- The sources of a form are ready. -/
def FpForm.ready (f : FpForm) (s : State) : Prop :=
  s.readable f.a.reg ∧ match f.b with
    | some b => s.readable b.reg
    | none => True

/-- The context after a form's sources are read. -/
def FpForm.read (f : FpForm) (c : Context) : Context :=
  match f.b with
  | some b => c.popped2 f.a.reg b.reg
  | none => c.popped f.a.reg

/-- The cause of an enabled exception: the first in the order NV, DZ, OF, UF, NX (05 R68). -/
def firstCause (f : BitVec 5) : BitVec 7 :=
  if f.getLsbD 4 then Cause.fpInvalid else if f.getLsbD 3 then Cause.fpDivZero else if f.getLsbD 2 then Cause.fpOverflow
  else if f.getLsbD 1 then Cause.fpUnderflow else Cause.fpInexact

end Sys2Proof.Claims
end

