-- ==== Sys2Proof/Claims/Vec.lean ====
section
/-!
DEFINITION. Vec.lean: the vector instructions by the tables of spec/11_vector_and_float.md (R219 to R229), element by element.
-/

namespace Sys2Proof.Claims

open Sys2Proof.Machine

/-- Element j of n bits of a vector (04 R55). -/
def elem (n : Nat) (v : Vec) (j : Nat) : Nat := v.toNat / 2 ^ (n * j) % 2 ^ n

/-- The bits of an element, from esize. -/
def bitsOfSize (e : BitVec 2) : Nat := 8 * 2 ^ e.toNat

/-- Is element j of n bits active under a mask: the mask's bit of the element's lowest byte. -/
def activeIn (k : Word) (n j : Nat) : Bool := k.getLsbD (j * (n / 8))

/-- An element as a signed number. -/
def sx (n x : Nat) : Int := if x < 2 ^ (n - 1) then (x : Int) else (x : Int) - 2 ^ n

/-- A number clamped to the signed n-bit range. -/
def clamp (n : Nat) (v : Int) : Int := max (-2 ^ (n - 1)) (min (2 ^ (n - 1) - 1) v)

/-- An integer instruction of major 18: registers, wait mark, mask, element size, and element i from a, b and the old one. -/
structure LaneForm where
  d : VName
  a : VName
  b : VName
  w : Bool
  m : MName
  n : Nat
  f : Nat → Nat → Nat → Int

def laneForm : Instr → Option LaneForm
  | .vadd d a b w m e => some ⟨d, a, b, w, m, bitsOfSize e, fun x y _ => (x : Int) + y⟩
  | .vsub d a b w m e => some ⟨d, a, b, w, m, bitsOfSize e, fun x y _ => (x : Int) - y⟩
  | .vmul d a b w m e => some ⟨d, a, b, w, m, bitsOfSize e, fun x y _ => (x : Int) * y⟩
  | .vmulh d a b w m e =>
      let n := bitsOfSize e
      some ⟨d, a, b, w, m, n, fun x y _ => sx n x * sx n y / 2 ^ n⟩
  | .vmin d a b w m e =>
      let n := bitsOfSize e
      some ⟨d, a, b, w, m, n, fun x y _ => min (sx n x) (sx n y)⟩
  | .vmax d a b w m e =>
      let n := bitsOfSize e
      some ⟨d, a, b, w, m, n, fun x y _ => max (sx n x) (sx n y)⟩
  | .vminu d a b w m e => some ⟨d, a, b, w, m, bitsOfSize e, fun x y _ => (min x y : Nat)⟩
  | .vmaxu d a b w m e => some ⟨d, a, b, w, m, bitsOfSize e, fun x y _ => (max x y : Nat)⟩
  | .vand d a b w m e => some ⟨d, a, b, w, m, bitsOfSize e, fun x y _ => (x &&& y : Nat)⟩
  | .vor d a b w m e => some ⟨d, a, b, w, m, bitsOfSize e, fun x y _ => (x ||| y : Nat)⟩
  | .vxor d a b w m e => some ⟨d, a, b, w, m, bitsOfSize e, fun x y _ => (x ^^^ y : Nat)⟩
  | .vshl d a b w m e =>
      let n := bitsOfSize e
      some ⟨d, a, b, w, m, n, fun x y _ => (x * 2 ^ (y % n) : Nat)⟩
  | .vshr d a b w m e =>
      let n := bitsOfSize e
      some ⟨d, a, b, w, m, n, fun x y _ => (x / 2 ^ (y % n) : Nat)⟩
  | .vsra d a b w m e =>
      let n := bitsOfSize e
      some ⟨d, a, b, w, m, n, fun x y _ => sx n x / 2 ^ (y % n)⟩
  | .vfshl d a b w m e =>
      let n := bitsOfSize e
      some ⟨d, a, b, w, m, n, fun x y o => ((o * 2 ^ n + x) * 2 ^ (y % n) / 2 ^ n : Nat)⟩
  | .vfshr d a b w m e =>
      let n := bitsOfSize e
      some ⟨d, a, b, w, m, n, fun x y o => ((x * 2 ^ n + o) / 2 ^ (y % n) : Nat)⟩
  | .vsadd d a b w m e =>
      let n := bitsOfSize e
      some ⟨d, a, b, w, m, n, fun x y _ => clamp n (sx n x + sx n y)⟩
  | .vssub d a b w m e =>
      let n := bitsOfSize e
      some ⟨d, a, b, w, m, n, fun x y _ => clamp n (sx n x - sx n y)⟩
  | .vclz d a w m e =>
      let n := bitsOfSize e
      some ⟨d, a, a, w, m, n, fun x _ _ => ((List.range n).takeWhile fun i => !x.testBit (n - 1 - i)).length⟩
  | .vpopc d a w m e =>
      let n := bitsOfSize e
      some ⟨d, a, a, w, m, n, fun x _ _ => ((List.range n).countP fun i => x.testBit i)⟩
  | .vabs d a w m e =>
      let n := bitsOfSize e
      some ⟨d, a, a, w, m, n, fun x _ _ => ((sx n x).natAbs : Nat)⟩
  | _ => none

/-- A floating-point instruction of major 19: its type's format, its rounding field, and element i and its flags. -/
structure FpLaneForm where
  d : VName
  a : VName
  b : VName
  w : Bool
  m : MName
  k : Fmt
  rm : BitVec 3
  f : Rnd → Nat → Nat → Nat → Nat × FpFlags

def fpLaneForm : Instr → Option FpLaneForm
  | .vfadd d a b w r m t => some ⟨d, a, b, w, m, formatOf t, r, fun q x y _ => (formatOf t).add q x y⟩
  | .vfsub d a b w r m t => some ⟨d, a, b, w, m, formatOf t, r, fun q x y _ => (formatOf t).sub q x y⟩
  | .vfmul d a b w r m t => some ⟨d, a, b, w, m, formatOf t, r, fun q x y _ => (formatOf t).mul q x y⟩
  | .vfma d a b w r m t => some ⟨d, a, b, w, m, formatOf t, r, fun q x y o => (formatOf t).fma q false x y o⟩
  | .vfmin d a b w m t => some ⟨d, a, b, w, m, formatOf t, 0#3, fun _ x y _ => (formatOf t).minMax false x y⟩
  | .vfmax d a b w m t => some ⟨d, a, b, w, m, formatOf t, 0#3, fun _ x y _ => (formatOf t).minMax true x y⟩
  | .vfexpn d a w r m t => some ⟨d, a, a, w, m, formatOf t, r, fun q x _ _ => (formatOf t).expNeg q x⟩
  | .vfrcp d a w r m t => some ⟨d, a, a, w, m, formatOf t, r, fun q x _ _ =>
      (formatOf t).div q ((formatOf t).round false .rne (.num false 1 0)).1 x⟩
  | _ => none

/-- The source of a conversion (R222): its bits and its value. -/
def sourceOf (c : VName) : Option (Nat × (Nat → FVal)) :=
  let int (n : Nat) (s : Bool) : Option (Nat × (Nat → FVal)) := some (n, fun x => FVal.ofInt (if s then sx n x else x))
  [some (16, Fmt.unpack .bf16), some (16, Fmt.unpack .fp16), some (32, Fmt.unpack .fp32), some (64, Fmt.unpack .fp64),
    some (8, Fmt.unpack .e4m3), some (8, Fmt.unpack .e5m2), int 8 true, int 16 true, int 32 true, int 64 true,
    int 8 false, int 16 false, int 32 false, int 64 false, none, none].getD c.toNat none

/-- A conversion (R222): registers, mark, mask, source code, rounding field, destination bits, whether only FP sources are
allowed, and the conversion of a value. -/
structure CvtForm where
  d : VName
  a : VName
  c : VName
  w : Bool
  r : BitVec 3
  m : MName
  n : Nat
  fpOnly : Bool
  f : Rnd → FVal → Nat × FpFlags

def cvtForm : Instr → Option CvtForm
  | .vfcvt d a c w r m t => some ⟨d, a, c, w, r, m, (formatOf t).width, false, fun q v => (formatOf t).round false q v⟩
  | .vfcvtFp8 d a c w r m e => some ⟨d, a, c, w, r, m, 8, true, fun q v =>
      (if e.toNat < 2 then Fmt.e4m3 else .e5m2).round (e.toNat == 0 || e.toNat == 3) q v⟩
  | .vfcvtInt d a c w r m e => some ⟨d, a, c, w, r, m, bitsOfSize e, true, fun q v =>
      let o := v.toInt (bitsOfSize e) true q
      ((o.1 % (2 ^ bitsOfSize e : Nat)).toNat, o.2.1)⟩
  | .vfcvtUint d a c w r m e => some ⟨d, a, c, w, r, m, bitsOfSize e, true, fun q v =>
      let o := v.toInt (bitsOfSize e) false q
      ((o.1 % (2 ^ bitsOfSize e : Nat)).toNat, o.2.1)⟩
  | _ => none

/-- The flags that the active ones of n elements raise together (R219). -/
def flagsOf (act : Nat → Bool) (f : Nat → FpFlags) : Nat → FpFlags
  | 0 => 0#5
  | n + 1 => flagsOf act f n ||| if act n then f n else 0#5

/-- The registers of the context can be read now: nothing is on its way to them, and no fence holds the read of one that a window
wrote (07 R97). -/
def filled (s : State) (l : List VName) : Prop := ∀ v ∈ l, (s.img.v[v.toFin]).full = true ∧ s.ordered (32 + v.toNat)

/-- The context after vector registers are read as sources: a window write that they hold is now read. -/
def seen (c : Context) (l : List VName) : Context := l.foldl (fun c v => c.unwindow (32 + v.toNat)) c

/-- The value of a vector register. -/
def vec (c : Context) (v : VName) : Vec := (c.v[v.toFin]).val

/-- The context with a vector register written. -/
def putVec (c : Context) (d : VName) (u : Vec) : Context :=
  ({ c with v := c.v.set d.toFin ⟨u, true⟩ } : Context).unwindow (32 + d.toNat)

/-- The context with a mask register written; m0 ignores it (04 R55). -/
def putMask (c : Context) (d : MName) (u : Word) : Context := if d = 0#3 then c else { c with m := c.m.set d.toFin u }

/-- A cross-lane instruction that writes each element (R227, R228): registers, mark, mask, element bits, whether inactive
elements are kept, and element i from the two sources, the activity of the elements and their number. -/
structure CrossForm where
  d : VName
  a : VName
  b : VName
  w : Bool
  m : MName
  n : Nat
  f : (Nat → Nat) → (Nat → Nat) → (Nat → Bool) → Nat → Nat → Nat

/-- The sum of f over the i below n that a test selects. -/
def sumOf (p : Nat → Bool) (f : Nat → Nat) (n : Nat) : Nat := (((List.range n).filter p).map f).sum

def crossForm : Instr → Option CrossForm
  | .vperm d a b w m e => some ⟨d, a, b, w, m, bitsOfSize e, fun x y act n i => if act i then x (y i % n) else 0⟩
  | .vredadd d a w m e => some ⟨d, a, a, w, m, bitsOfSize e, fun x _ act n i => if i = 0 then sumOf act x n else 0⟩
  | .vredmax d a w m e =>
      let w' := bitsOfSize e
      some ⟨d, a, a, w, m, w', fun x _ act n i => if i ≠ 0 then 0 else
        ((((List.range n).filter act).map fun j => sx w' (x j)).foldl max (-2 ^ (w' - 1)) % 2 ^ w').toNat⟩
  | .vredmin d a w m e =>
      let w' := bitsOfSize e
      some ⟨d, a, a, w, m, w', fun x _ act n i => if i ≠ 0 then 0 else
        ((((List.range n).filter act).map fun j => sx w' (x j)).foldl min (2 ^ (w' - 1) - 1) % 2 ^ w').toNat⟩
  | .vscan d a w m e => some ⟨d, a, a, w, m, bitsOfSize e, fun x _ act _ i => sumOf act x (i + 1)⟩
  | .vsel d a b w m e => some ⟨d, a, b, w, m, bitsOfSize e, fun x y act _ i => if act i then x i else y i⟩
  | .vgmax d g a w m e =>
      let size := 2 ^ (g.toNat + 1)
      some ⟨d, a, a, w, m, bitsOfSize e, fun x _ act _ i =>
        (((List.range size).filter fun j => act (i / size * size + j)).map fun j => x (i / size * size + j)).foldl max (x i)⟩
  | .vgmin d g a w m e =>
      let size := 2 ^ (g.toNat + 1)
      some ⟨d, a, a, w, m, bitsOfSize e, fun x _ act _ i =>
        (((List.range size).filter fun j => act (i / size * size + j)).map fun j => x (i / size * size + j)).foldl min (x i)⟩
  | _ => none

/-- Does an instruction write its inactive elements too (R227)? -/
def writesAll : Instr → Bool
  | .vredadd _ _ _ _ _ | .vredmax _ _ _ _ _ | .vredmin _ _ _ _ _ | .vsel _ _ _ _ _ _ => true
  | _ => false

/-- The group of `vgmax` and `vgmin` holds no more elements than the vector (R228). -/
def groupFits : Instr → Prop
  | .vgmax _ g _ _ _ e | .vgmin _ g _ _ _ e => 2 ^ (g.toNat + 1) * bitsOfSize e ≤ 512
  | _ => True

/-- The context with vector register d empty until its value arrives (04 R51). -/
def emptyVec (c : Context) (d : VName) : Context :=
  ({ c with v := c.v.set d.toFin { c.v[d.toFin] with full := false } } : Context).unwindow (32 + d.toNat)

/-- The pieces of a vector that a reply brings, each with the reply's bytes. -/
def vectorPieces (r : Req) : List ((Nat × Nat × Nat) × List Byte) :=
  match r.body with
  | .reply (.v _ _ ps) bs _ => ps.map fun p => (p, bs)
  | _ => []

end Sys2Proof.Claims
end

