-- ==== Sys2Proof/Claims/Engine.lean ====
section
/-!
DEFINITION. Engine.lean: the tile-task record as 12 R243, R244 and 13 R258 lay it out, and the rules it must meet; the words
that the scheduler and the tile table answer with; and the slopes of the start gate (26 R373).
-/

namespace Sys2Proof.Claims

open Sys2Proof.Machine

/-- Bits hi down to lo of the record word at a byte offset. -/
def recBits (w : List (BitVec 32)) (off lo hi : Nat) : Nat := (w.getD (off / 4) 0#32).toNat / 2 ^ lo % 2 ^ (hi + 1 - lo)

/-- The formats a GEMM may have, by scale mode (R244). -/
def gemmRow (mode a b : Nat) : Prop :=
  (mode = 0 ∧ a = 3 ∧ b = 3) ∨ ((mode = 0 ∨ mode = 1) ∧ (a = 4 ∨ a = 5) ∧ (b = 4 ∨ b = 5)) ∨ (mode = 1 ∧ a = 6 ∧ b = 6) ∨
    (mode = 2 ∧ 10 ≤ a ∧ a ≤ 14 ∧ 10 ≤ b ∧ b ≤ 14)

/-- A record that meets every rule of R243, R244 and R258 on its fields. -/
def recordRules (w : List (BitVec 32)) : Prop :=
  let f := recBits w
  let m := f 0x04 0 15
  let n := f 0x04 16 31
  let k := f 0x08 0 15
  let a := f 0x08 16 19
  let b := f 0x08 20 23
  let mode := f 0x00 8 9
  let acc := f 0x00 12 15
  let any := f 0x00 11 11
  let drain := f 0x00 10 10
  let accumulate := f 0x00 5 5
  let aStream := f 0x0C 0 7
  let bStream := f 0x0C 8 15
  m ≤ 128 ∧ n ≤ 128 ∧ f 0x0C 16 22 + m ≤ 128 ∧ f 0x0C 24 30 + n ≤ 128 ∧
  f 0x08 26 31 = 0 ∧ f 0x0C 23 23 = 0 ∧ f 0x0C 31 31 = 0 ∧ f 0x14 2 31 = 0 ∧ f 0x18 24 31 = 0 ∧ f 0x1C 21 31 = 0 ∧
  (∀ x ∈ w.drop 8, x = 0#32) ∧ (mode = 1 ∨ f 0x08 24 25 = 0) ∧
  (if drain = 1 then 1 ≤ f 0x18 20 23 ∧ f 0x18 20 23 ≤ 14 else f 0x18 0 23 = 0) ∧
  (any = 1 → accumulate = 0 ∧ drain = 1 ∧ acc ≤ 3) ∧
  ((f 0x00 0 3 = 0 ∧ gemmRow mode a b ∧ (mode = 0 ∧ a = 3 → aStream ≠ bStream) ∧ (a = 6 → k % 2 = 0) ∧
      (mode = 2 → k % 32 = 0)) ∨
    (f 0x00 0 3 = 1 ∧ mode ≤ 1 ∧ (a = 3 ∨ a = 4 ∨ a = 5 ∨ a = 7) ∧ k % 128 = 0 ∧
      ((b = 15 ∧ aStream ≠ bStream) ∨ (b = 0 ∧ bStream < 8 ∧ n * (k / 128) ≤ 8 ∧ any = 0))) ∨
    ((f 0x00 0 3 = 2 ∨ f 0x00 0 3 = 3) ∧ mode = 0 ∧ a = 0 ∧ b = 0 ∧ k = 0 ∧ aStream = 0 ∧ bStream = 0 ∧ accumulate = 0 ∧
      (f 0x00 0 3 = 3 → drain = 1)))

/-- The entry of the tile table as a dword (04 R57). -/
def tileWord (t : Tile) : Nat :=
  t.base.toNat + 2 ^ 18 * t.size.toNat + 2 ^ 36 * t.state.toNat + 2 ^ 38 * t.owner.toNat + 2 ^ 39 * t.engine.toNat +
    2 ^ 50 * t.format.toNat + 2 ^ 54 * t.trailer.toNat + 2 ^ 55 * t.fault.toNat

/-- The bytes a tile of a format and size covers (R232, step 4). -/
def tileRoom (f size : Nat) : Nat := if 4 ≤ f ∧ f ≤ 14 then size + 16 else size

/-- The size rule of R232, step 3. -/
def wholeElements (f size : Nat) : Prop :=
  if 10 ≤ f ∧ f ≤ 14 then ∃ b : Nat, size = b * (if f ≤ 11 then 32 else if f ≤ 13 then 24 else 16) + (b + 15) / 16 * 16
  else size % 16 = 0

/-- Two runs of bytes share one. -/
def meets (a n b m : Nat) : Prop := a < b + m ∧ b < a + n

/-- The status word of a task (R250), from bit 0 upwards. -/
def statusWord (t : Task) : Nat :=
  t.status.toNat + (if t.status = 1#3 then 0 else 16 * (t.engine % 8)) + if t.status = 4#3 then 512 * t.cause.toNat else 0

/-- What SBPRD reads of an engine (13 R265 to R267, R271), by select, index and lane. -/
def engineState (e : Engine) (select k lane : Nat) : Word :=
  let l := if lane = 0 then e.lanes.1 else e.lanes.2
  if select = 0 then (BitVec.ofInt 48 (l.sums.getD k 0)).signExtend 64
  else if select = 1 then (if k = 127 then BitVec.ofInt 64 l.top else BitVec.ofNat 64 (l.diffs.getD k 0))
  else if select = 2 then
    match e.slots.find k with
    | none => 0#64
    | some x => BitVec.ofNat 64 (x.block.kind.toNat + 256 + 512 * x.pinned.toNat)
  else BitVec.ofNat 64 ((BitVec.ofInt 16 l.unit).toNat + 2 ^ 16 * (l.row % 128) + 2 ^ 23 * (l.column % 128) +
    2 ^ 30 * (l.group % 512) + 2 ^ 39 * l.valid.toNat)

/-- The trailer that a conversion into a quantised format writes (05 R73). -/
def trailerOf (f : Nat) (e : Encoded) : List Byte :=
  bytesOfNat 4 e.mag ++ bytesOfNat 4 e.sat ++ bytesOfNat 4 (crc32c e.data).toNat ++
    bytesOfNat 4 (f * 2 ^ 28 + (elemCount f e.data.length).getD 0 % 2 ^ 28)

/-- The slope of a ramp: ΔI · 3300 / L, in A/µs (26 R373). -/
def slope (r : Ramp) : Rat := mkRat (r.step * 3300) r.length

/-- The ramp of a step at the die's registers: it takes max(eng.ramp, ⌈ΔI · 3300 / didt.limit⌉) cycles, the limit
being as it stood before a write of the same cycle (26 R381). -/
def rampOf (s : State) (die step : Nat) : Ramp :=
  let d := s.die die
  let limit := (if d.didtAt = s.cycle then d.didtOld else d.didt).toNat
  let l := max d.engRamp.toNat ((step * 3300 + limit - 1) / limit)
  ⟨s.cycle + l, step, l⟩

end Sys2Proof.Claims
end

