-- ==== Sys2Proof/Claims/Int.lean ====
section
/-!
DEFINITION. Int.lean: the results of the integer instructions as the tables of spec/09_scalar_and_control.md give them, over
the integers and natural numbers their operands stand for.
-/

namespace Sys2Proof.Claims

open Sys2Proof.Machine

/-- The count of a register shift: bits 5:0 of s2 (R146). -/
def count (y : Word) : Nat := y.toNat % 64

/-- 1 or 0. -/
def one (b : Prop) [Decidable b] : Word := if b then 1#64 else 0#64

/-- x rotated left by n: bit i of the result is bit (i - n) mod 64 of x. -/
def rotl (x : Word) (n : Nat) : Word := BitVec.ofNat 64 (x.toNat * 2 ^ n + x.toNat / 2 ^ (64 - n))

/-- The number of bits of x from the top down to the highest 1 bit. -/
def leading (x : Word) : Nat → Nat
  | 0 => 0
  | n + 1 => if x.getLsbD n then 0 else leading x n + 1

/-- The number of bits of x from bit i up to the next 1 bit, n of them at most. -/
def trailing (x : Word) (i : Nat) : Nat → Nat
  | 0 => 0
  | n + 1 => if x.getLsbD i then 0 else trailing x (i + 1) n + 1

/-- The number of 1 bits among the low n. -/
def ones (x : Word) : Nat → Nat
  | 0 => 0
  | n + 1 => ones x n + if x.getLsbD n then 1 else 0

/-- The integer that the low w bits of x stand for, in two's complement. -/
def signed (x : Word) (w : Nat) : Int := if x.toNat % 2 ^ w < 2 ^ (w - 1) then (x.toNat % 2 ^ w : Nat) else (x.toNat % 2 ^ w : Nat) - 2 ^ w

/-- The field length of `bext` and `bins` (R148). -/
def fieldOf (y : Word) : Nat := if y.toNat / 256 % 128 ≤ 64 then y.toNat / 256 % 128 else 64

/-- Destination, sources and result of the instructions on two sources: majors 0, 2 and 3 but the division rows, and the
compact forms (R143, R146, R148, R149, 08 R136). -/
def twoSources : Instr → Option (XName × Src × Src × (Word → Word → Word))
  | .add d a b => some (d, a, b, fun x y => BitVec.ofNat 64 (x.toNat + y.toNat))
  | .sub d a b => some (d, a, b, fun x y => BitVec.ofInt 64 (x.toNat - y.toNat))
  | .and d a b => some (d, a, b, fun x y => BitVec.ofNat 64 (x.toNat &&& y.toNat))
  | .or d a b => some (d, a, b, fun x y => BitVec.ofNat 64 (x.toNat ||| y.toNat))
  | .xor d a b => some (d, a, b, fun x y => BitVec.ofNat 64 (x.toNat ^^^ y.toNat))
  | .andn d a b => some (d, a, b, fun x y => BitVec.ofNat 64 (x.toNat &&& (2 ^ 64 - 1 - y.toNat)))
  | .orn d a b => some (d, a, b, fun x y => BitVec.ofNat 64 (x.toNat ||| (2 ^ 64 - 1 - y.toNat)))
  | .min d a b => some (d, a, b, fun x y => BitVec.ofInt 64 (min x.toInt y.toInt))
  | .max d a b => some (d, a, b, fun x y => BitVec.ofInt 64 (max x.toInt y.toInt))
  | .minu d a b => some (d, a, b, fun x y => BitVec.ofNat 64 (min x.toNat y.toNat))
  | .maxu d a b => some (d, a, b, fun x y => BitVec.ofNat 64 (max x.toNat y.toNat))
  | .slt d a b => some (d, a, b, fun x y => one (x.toInt < y.toInt))
  | .sltu d a b => some (d, a, b, fun x y => one (x.toNat < y.toNat))
  | .seq d a b => some (d, a, b, fun x y => one (x = y))
  | .shl d a b => some (d, a, b, fun x y => BitVec.ofNat 64 (x.toNat * 2 ^ count y))
  | .shr d a b => some (d, a, b, fun x y => BitVec.ofNat 64 (x.toNat / 2 ^ count y))
  | .sra d a b => some (d, a, b, fun x y => BitVec.ofInt 64 (x.toInt / 2 ^ count y))
  | .rot d a b => some (d, a, b, fun x y => rotl x (count y))
  | .bext d a b => some (d, a, b, fun x y => BitVec.ofNat 64 (x.toNat / 2 ^ count y % 2 ^ fieldOf y))
  | .mul d a b => some (d, a, b, fun x y => BitVec.ofNat 64 (x.toNat * y.toNat))
  | .mulh d a b => some (d, a, b, fun x y => BitVec.ofInt 64 (x.toInt * y.toInt / 2 ^ 64))
  | .mulhu d a b => some (d, a, b, fun x y => BitVec.ofNat 64 (x.toNat * y.toNat / 2 ^ 64))
  | .mulhm d a b => some (d, a, b, fun x y => BitVec.ofInt 64 (x.toInt * (y.toNat : Int) / 2 ^ 64))
  | .cAdd a b => some (a.setWidth 5 + 8#5, ⟨a.setWidth 5 + 8#5, false⟩, ⟨b.setWidth 5 + 8#5, false⟩,
      fun x y => BitVec.ofNat 64 (x.toNat + y.toNat))
  | .cSub a b => some (a.setWidth 5 + 8#5, ⟨a.setWidth 5 + 8#5, false⟩, ⟨b.setWidth 5 + 8#5, false⟩,
      fun x y => BitVec.ofInt 64 (x.toNat - y.toNat))
  | _ => none

/-- Destination, source and result of the instructions on one source (R143, R144, R146, 08 R136). -/
def oneSource : Instr → Option (XName × Src × (Word → Word))
  | .abs d a => some (d, a, fun x => BitVec.ofNat 64 x.toInt.natAbs)
  | .addi d a i => some (d, a, fun x => BitVec.ofInt 64 (x.toInt + i.toInt))
  | .andi d a i => some (d, a, fun x => x &&& BitVec.ofInt 64 i.toInt)
  | .ori d a i => some (d, a, fun x => x ||| BitVec.ofInt 64 i.toInt)
  | .xori d a i => some (d, a, fun x => x ^^^ BitVec.ofInt 64 i.toInt)
  | .slti d a i => some (d, a, fun x => one (x.toInt < i.toInt))
  | .sltiu d a i => some (d, a, fun x => one (x.toNat < (BitVec.ofInt 64 i.toInt).toNat))
  | .shli d a n => some (d, a, fun x => BitVec.ofNat 64 (x.toNat * 2 ^ n.toNat))
  | .shri d a n => some (d, a, fun x => BitVec.ofNat 64 (x.toNat / 2 ^ n.toNat))
  | .srai d a n => some (d, a, fun x => BitVec.ofInt 64 (x.toInt / 2 ^ n.toNat))
  | .roti d a n => some (d, a, fun x => rotl x n.toNat)
  | .clz d a => some (d, a, fun x => BitVec.ofNat 64 (leading x 64))
  | .ctz d a => some (d, a, fun x => BitVec.ofNat 64 (trailing x 0 64))
  | .popc d a => some (d, a, fun x => BitVec.ofNat 64 (ones x 64))
  | .brev d a => some (d, a, fun x => BitVec.reverse x)
  | .sext d a w => some (d, a, fun x => BitVec.ofInt 64 (signed x (w.toNat + 1)))
  | .zext d a w => some (d, a, fun x => BitVec.ofNat 64 (x.toNat % 2 ^ (w.toNat + 1)))
  | .cMov a b => some (a.setWidth 5 + 8#5, ⟨b.setWidth 5 + 8#5, false⟩, fun x => x)
  | .cAddi a i => some (a.setWidth 5 + 8#5, ⟨a.setWidth 5 + 8#5, false⟩, fun x => BitVec.ofInt 64 (x.toInt + i.toInt))
  | _ => none

/-- Destination and value of the constants (R144, R145, 08 R136). -/
def constant : Instr → Option (XName × Word)
  | .ldi d i => some (d, BitVec.ofInt 64 i.toInt)
  | .ldiL d i => some (d, BitVec.ofInt 64 i.toInt)
  | .cLdi a i => some (a.setWidth 5 + 8#5, BitVec.ofInt 64 i.toInt)
  | _ => none

/-- The instructions that also read their destination (R142): the result from its old value and the two sources (R143, R147,
R148). -/
def oldDest : Instr → Option (XName × Src × Src × (Word → Word → Word → Word))
  | .sel d a b => some (d, a, b, fun o x y => if o.toNat = 0 then y else x)
  | .fshl d a b => some (d, a, b, fun o x y => BitVec.ofNat 64 ((o.toNat * 2 ^ 64 + x.toNat) * 2 ^ count y / 2 ^ 64))
  | .fshr d a b => some (d, a, b, fun o x y => BitVec.ofNat 64 ((x.toNat * 2 ^ 64 + o.toNat) / 2 ^ count y))
  | .bins d a b => some (d, a, b, fun o x y =>
      (o &&& ~~~BitVec.ofNat 64 ((2 ^ fieldOf y - 1) * 2 ^ count y)) |||
        BitVec.ofNat 64 (x.toNat % 2 ^ fieldOf y * 2 ^ count y))
  | _ => none

/-- The quotients and remainders, the borderline rows of R150 first. -/
def quotient : Instr → Option (XName × Src × Src × (Word → Word → Word))
  | .div d a b => some (d, a, b, fun x y => BitVec.ofInt 64 (
      if y.toInt = 0 then (if x.toInt = 0 then 0 else if x.toInt > 0 then 2 ^ 63 - 1 else -2 ^ 63)
      else if x.toInt = -2 ^ 63 ∧ y.toInt = -1 then 2 ^ 63 - 1
      else x.toInt.tdiv y.toInt))
  | .divu d a b => some (d, a, b, fun x y => BitVec.ofNat 64 (
      if y.toNat = 0 then (if x.toNat = 0 then 0 else 2 ^ 64 - 1) else x.toNat / y.toNat))
  | .rem d a b => some (d, a, b, fun x y => BitVec.ofInt 64 (if y.toInt = 0 then 0 else x.toInt.tmod y.toInt))
  | .remu d a b => some (d, a, b, fun x y => BitVec.ofNat 64 (if y.toNat = 0 then 0 else x.toNat % y.toNat))
  | _ => none

end Sys2Proof.Claims
end

