-- ==== Sys2Proof/Claims/Frame.lean ====
section
/-!
DEFINITION. Frame.lean: the destination of an integer instruction (09 R142 to R151), for what it leaves unchanged.
-/

namespace Sys2Proof.Claims

open Sys2Proof.Machine

/-- The x register an integer instruction writes. -/
def integerDest (i : Instr) : Option XName :=
  ((twoSources i).map fun e => e.1) <|> ((oneSource i).map fun e => e.1) <|> ((constant i).map fun e => e.1) <|>
    ((oldDest i).map fun e => e.1) <|> ((quotient i).map fun e => e.1)

end Sys2Proof.Claims
end

