-- ==== Sys2Proof/Claims/Ray.lean ====
section
/-!
DEFINITION. Ray.lean: ray handles and the words SPRD reads, as 14 R275 and R287 lay them out, and node descriptors (16 R305).
-/

namespace Sys2Proof.Claims

open Sys2Proof.Machine

/-- The handle of a slot of a stage, with a generation and a source number (R275). -/
def handleWord (st slot gen src : Nat) : Nat :=
  slot + 2 ^ 10 * (st % 8) + 2 ^ 13 * (st % 40 / 8) + 2 ^ 16 * (st / 40) + 2 ^ 18 * gen + 2 ^ 32 * src

/-- A handle that passes checks 1 to 3 and 5 of R285: it names a slot in use, of a stage of the issuer's partition, whose unit
gets no new microcode now (29 R415). -/
def names (s : State) (v : Word) (st slot src : Nat) : Prop :=
  st < 160 ∧ slot < 1024 ∧ src < 8 ∧ v.toNat = handleWord st slot ((s.stage st).ray slot).gen.toNat src ∧
    ((s.stage st).ray slot).status ≠ 0#4 ∧ s.grade.noStage.contains st = false ∧ s.sameStage s.cur.1 st = true ∧
    s.travUpdating st = false

/-- The ray with one of its sources replaced. -/
def putSource (r : Ray) (k : Nat) (x : RaySource) : Ray := { r with sources := r.sources.set k x }

/-- The bits of a test over the sources, source 0 lowest. -/
def sourceMask (r : Ray) (p : RaySource → Bool) : Nat :=
  (r.sources.zipIdx.map fun e => if p e.1 then 2 ^ e.2 else 0).foldr (· + ·) 0

/-- What SPRD reads for fields 0 to 4, and for fields 5 to 7 of an entry k that is absent (R286, R287). -/
def sprdWord (r : Ray) (field k : Nat) : Option Nat :=
  if field = 0 then
    some (r.status.toNat + 2 ^ 16 * (r.spans.length % 32) + 2 ^ 24 * (sourceMask r fun x => x.registered) % 2 ^ 32 +
      2 ^ 32 * (sourceMask r (fun x => x.registered && x.done) % 256) + 2 ^ 40 * r.overflow.toNat)
  else if field = 1 then some (r.front.toNat + 2 ^ 32 * r.consumed.toNat)
  else if field = 2 then some (r.colour.1.toNat + 2 ^ 32 * r.colour.2.1.toNat)
  else if field = 3 then some (r.colour.2.2.toNat + 2 ^ 32 * r.bound.toNat)
  else if field = 4 then (r.sources[k]?).map fun x => x.settled.toNat
  else match r.spans[k]? with
    | none => some (2 ^ 64 - 1)
    | some x =>
      let u := x.use
      if field = 5 then some (x.a.toNat + 2 ^ 32 * x.b.toNat)
      else if field = 6 then
        some (u.1.toNat + 2 ^ 32 * x.conf.toNat + 2 ^ 40 * x.kind.toNat + if x.form = .merged then 2 ^ 43 else 0)
      else some ((narrow16 u.2.1).toNat + 2 ^ 16 * (narrow16 u.2.2.1).toNat + 2 ^ 32 * u.2.2.2.toNat)

/-! ## The span list (14 R279 to R282) -/

/-- What an answer contributes to a piece: the density round(τ / (t1 - t0)), and per component the density times the colour, each
rounded once; an answer with τ = 0 has no emission (R273, R274, R279). -/
def contribution (ans : Answer) : Share :=
  let rho := step32 FVal.quot (val16 ans.tau) (((val32 ans.t1).minus (val32 ans.t0)).getD (.nan false))
  ⟨rho, map3 (fun e => mul32 rho (if (val16 ans.tau).isZero then 0#32 else colourOf (val16 ans.tau) e)) ans.emission, ans⟩

/-- An entry as a list with an interval piece that holds t inside cut there (R279). -/
def splitAt (t : BitVec 32) (x : Span) : List Span :=
  if x.form = .interval ∧ lt32 x.a t = true ∧ lt32 t x.b = true then [{ x with b := t }, { x with a := t }] else [x]

/-- Two entries in key order: by their start, a surface after the others, surfaces by kind and then by primitive ID (R279). -/
def inOrder (x y : Span) : Prop :=
  lt32 y.a x.a = false ∧ (eq32 x.a y.a = true → x.form = .surface →
    y.form = .surface ∧ (x.kind < y.kind ∨ x.kind = y.kind ∧ x.prim ≤ y.prim))

/-- What an opaque surface with the key (t, kind, primitive ID) leaves of an entry (R280). -/
def leftBy (t : BitVec 32) (kind : BitVec 3) (prim : BitVec 64) (x : Span) : Option Span :=
  if x.form = .surface then
    if lt32 t x.a = true ∨ eq32 t x.a = true ∧ (kind < x.kind ∨ kind = x.kind ∧ prim < x.prim) then none else some x
  else if le32 t x.a = true then none
  else if x.form = .interval ∧ lt32 t x.b = true then some { x with b := t }
  else some x

/-- An interval piece from p to q to which an answer is added: exact sums, the smaller confidence, the common kind or 7, and the
identity of the denser contributor (R279, R280). -/
def added (x y : Span) (c : Share) (p q : BitVec 32) : Prop :=
  y.form = .interval ∧ y.a = p ∧ y.b = q ∧ y.rho = exactSum x.rho (val32 c.rho) ∧
    y.sigma = zip3 exactSum x.sigma (map3 val32 c.sigma) ∧
    y.kind = (if c.ans.kind = x.kind then x.kind else 7#3) ∧ y.conf = (if c.ans.conf < x.conf then c.ans.conf else x.conf) ∧
    (lt32 x.best c.rho = true → y.source = c.ans.source ∧ y.prim = c.ans.prim ∧ y.best = c.rho) ∧
    (lt32 c.rho x.best = true → y.source = x.source ∧ y.prim = x.prim ∧ y.best = x.best)

/-- τ and the emission with which an entry is consumed (R282). -/
def consumption (x : Span) : BitVec 32 × (BitVec 32 × BitVec 32 × BitVec 32) :=
  if x.form = .interval then
    let tau := step32 FVal.mul x.rho (((val32 x.b).minus (val32 x.a)).getD (.nan false))
    (tau, map3 (fun c => mul32 (sub32 one32 (expn32 tau)) (if x.rho.isZero then 0#32 else step32 FVal.quot c x.rho)) x.sigma)
  else (x.tau, x.e)

/-- Is an entry consumable under a settled bound (R282)? -/
def mayConsume (x : Span) (bound : BitVec 32) : Prop :=
  if x.form = .surface then lt32 x.a bound = true ∨ eq32 bound inf32 = true else le32 x.b bound = true

/-- A ray after its first entry is consumed: each step rounded once (R282). -/
def consumed (r : Ray) (x : Span) (rest : List Span) : Ray :=
  let u := consumption x
  { r with
    colour := zip3 (fun c e => add32 c (mul32 r.front e)) r.colour u.2
    front := mul32 r.front (expn32 u.1)
    consumed := x.b
    spans := rest }

/-- The range to which an answer is clipped: from where the ray starts or has been consumed to where it ends or is clipped. -/
def clipRange (r : Ray) : BitVec 32 × BitVec 32 :=
  (max32 r.tmin r.consumed, min32 r.tmax (match r.clip with | some c => c.1 | none => inf32))

/-- A surface that an insertion takes: inside the range, and its key not after the clip key. -/
def surfaceTaken (r : Ray) (ans : Answer) : Prop :=
  eq32 ans.t0 ans.t1 = true ∧ lt32 ans.t0 (clipRange r).1 = false ∧ lt32 (clipRange r).2 ans.t0 = false ∧
    ∀ c, r.clip = some c → keyAfter (ans.t0, ans.kind, ans.prim) c = false

/-- No boundary of the list is a NaN. -/
def numbers (r : Ray) : Prop := ∀ x ∈ r.spans, (val32 x.a).isNaN = false ∧ (val32 x.b).isNaN = false

/-- A well-formed descriptor of a handler node: class, target core, counter (16 R305). -/
def handlerNode (w : List (BitVec 32)) (cls core counter : Nat) : Prop :=
  1 ≤ cls ∧ cls < 256 ∧ core < 2 ^ 14 ∧ counter < 64 ∧
    w = [BitVec.ofNat 32 (256 * cls), BitVec.ofNat 32 (core + 2 ^ 14 * counter), 0#32, 0#32]

/-- A well-formed descriptor of a raster node. -/
def rasterNode (w : List (BitVec 32)) (ordered : Bool) (die unit queue core counter producers : Nat) : Prop :=
  die < 4 ∧ unit < 4 ∧ queue < 64 ∧ core < 2 ^ 14 ∧ counter < 64 ∧ 1 ≤ producers ∧ producers < 4096 ∧
    w = [BitVec.ofNat 32 (1 + 4 * ordered.toNat), BitVec.ofNat 32 (die + 4 * unit + 16 * queue),
      BitVec.ofNat 32 (core + 2 ^ 14 * counter + 2 ^ 20 * producers), 0#32]

end Sys2Proof.Claims
end

