-- ==== Sys2Proof/Claims/Sync.lean ====
section
/-!
DEFINITION. Sync.lean: the counter, fence and group instructions by the rows of spec/10_memory_messages_sync.md, and what a
fence waits for (R190 to R194, R206, R207).
-/

namespace Sys2Proof.Claims

open Sys2Proof.Machine

/-- The counter a `cwait` form waits on, the value it waits for, and the state after its source is read (R190, 08 R136). -/
def waitsFor (s : State) : Instr → Option (Nat × Nat × State)
  | .cwait n i => some (n.toNat, i.toNat, s)
  | .cwaitReg n a => some (n.toNat, ((s.img.sourceVal a.reg).val.setWidth 32).toNat, s.pop a.reg)
  | .cCwait n i => some (n.toNat, i.toNat, s)
  | _ => none

/-- The counter a `cadd` form adds to, the step, and the state after its source is read (R191). -/
def addsTo (s : State) : Instr → Option (Nat × BitVec 32 × State)
  | .cadd n i => some (n.toNat, BitVec.ofInt 32 i.toInt, s)
  | .caddReg n a => some (n.toNat, (s.img.sourceVal a.reg).val.setWidth 32, s.pop a.reg)
  | _ => none

/-- The counter a `cset` form sets, its new value, and its new trigger class if it names one (R190). -/
def sets (s : State) : Instr → Option (Nat × BitVec 32 × Option (BitVec 8) × State)
  | .cset n i => some (n.toNat, BitVec.ofNat 32 i.toNat, none, s)
  | .csetReg n a => some (n.toNat, (s.img.sourceVal a.reg).val.setWidth 32, some ((s.img.sourceVal a.reg).val.extractLsb' 32 8),
      s.pop a.reg)
  | _ => none

/-- The register a counter form reads is ready. -/
def ready (s : State) : Instr → Prop
  | .cwaitReg _ a | .caddReg _ a | .csetReg _ a => s.readable a.reg
  | _ => True

/-- Scope, P and Q of a fence (R192). -/
def fence : Instr → Option (Scope × BitVec 5 × BitVec 5)
  | .fenceC p q => some (.core, p, q)
  | .fenceS p q => some (.stage, p, q)
  | .fenceD p q => some (.die, p, q)
  | .fenceP p q => some (.package, p, q)
  | .fenceY p q => some (.system, p, q)
  | _ => none

/-- The request of a group instruction, its destination and its source (R206, R207). -/
def groupForm : Instr → Option (GroupOp × XName × Src)
  | .join a => some (.join, 0#5, a)
  | .leave a => some (.leave, 0#5, a)
  | .barw a => some (.barw, 0#5, a)
  | .bara a => some (.bara, 0#5, a)
  | .bard a => some (.bard, 0#5, a)
  | .barq d a => some (.barq, d, a)
  | _ => none

/-- The state in which queue entry k of the core has been taken (R187). -/
def enqueue (s : State) (k : Nat) (e : DqEntry) : State :=
  let q := (s.core s.cur.1).queues
  { s.setQueues s.cur.1 { q with dq := q.dq.set k e, dqOrder := q.dqOrder + 1 } with nextId := s.nextId + 1 }

/-- The virtual address of byte i of an entry's transfer (R187); in a gather, of the row that its index names (R188). -/
def entryAddress (e : DqEntry) (i : Nat) : Nat :=
  if e.kind = .gather then (e.va + e.indices.getD (i / 2 ^ e.exp) 0 * 2 ^ e.exp + i % 2 ^ e.exp) % 2 ^ 57
  else (e.va + i) % 2 ^ 57

/-- The state in which queue entry k of a core has completed (06 R86): it is free, and its counter is one more, or the bump is on its
way to it. -/
def entryEnds (s : State) (core k : Nat) (e : DqEntry) : State :=
  let q := (s.core core).queues
  let u := s.setQueues core { q with dq := q.dq.filter fun x => x.1 != k }
  if e.target = core then u.addCounter core e.counter 1#32
  else (u.sent core).push { Req.device core (.bump e.target e.counter 1) with place := .core e.target }

/-- Has every thread that the current phase expects arrived (03 R39)? -/
def allArrived (g : Group) : Bool :=
  (g.members.filter fun m => m.arrived && (!m.pending || m.leaving)).length == g.expected

/-- What a home core keeps of a group after a change (R39): where every expected thread has arrived the phase is complete, and the
next one's members are those that stay and those that joined meanwhile; a group without members is gone. -/
def phaseAfter (g : Group) : Option Group :=
  let next := (g.members.filter fun m => m.pending || !m.leaving).map fun m => ⟨m.core, m.ctx, m.epoch, false, false, false, none⟩
  let g' : Group := if allArrived g then ⟨g.phase + 1#32, next.length, next⟩ else g
  if g'.members = [] then none else some g'

/-- The status word of a group for one of its threads (R207); all zero for a group that does not exist. -/
def statusOfGroup (g : Option Group) (m : Option Member) : Word :=
  match g with
  | none => 0#64
  | some g =>
    let bit (p : Member → Bool) (k : Nat) : Nat := if m.any p then 2 ^ k else 0
    BitVec.ofNat 64 (g.phase.toNat + 2 ^ 32 + bit (fun m => !m.pending || m.leaving) 33 + bit (fun m => m.arrived) 34 +
      bit (fun m => m.pending) 35 + 2 ^ 36 * (g.expected % 2 ^ 13))

end Sys2Proof.Claims
end

