-- ==== Sys2Proof/Claims/Sys.lean ====
section
/-!
DEFINITION. Sys.lean: the control registers as 23 R322 and R323 tabulate them (24 R342, 29 R416), what a write leaves in each
(04 R58, 05 R67, R68, 06 R88, R93), trap entry and return (R325, R330), and TLB entries (25 R352, R353).
-/

namespace Sys2Proof.Claims

open Sys2Proof.Machine

/-- Access: read-write, read-only, none ("control-register privilege"), or an unassigned number. -/
inductive Access where
  | rw | ro | denied | absent
deriving DecidableEq, Repr

/-- The rows of R322 and R416: first and last number, user, supervisor, and whether firmware may write. -/
def csrRows : List (Nat × Nat × Access × Access × Bool) :=
  [(0x000, 0x001, .rw, .rw, true), (0x002, 0x005, .ro, .ro, false), (0x006, 0x006, .ro, .rw, true), (0x007, 0x007, .ro, .ro, false),
   (0x008, 0x010, .ro, .rw, true), (0x020, 0x025, .denied, .rw, true), (0x030, 0x030, .denied, .rw, true),
   (0x040, 0x045, .ro, .rw, true), (0x060, 0x060, .denied, .ro, true), (0x070, 0x073, .denied, .denied, true),
   (0x080, 0x083, .denied, .ro, true)]

/-- The access that a mode has to a register. Firmware has the snapshot registers of R416 as R322 gives it every register. -/
def access (m : Mode) (n : Nat) : Access :=
  match csrRows.find? fun r => decide (r.1 ≤ n) && decide (n ≤ r.2.1) with
  | none => .absent
  | some r => match m with
    | .user => r.2.2.1
    | .supervisor => r.2.2.2.1
    | .firmware => if r.2.2.2.2 then .rw else .ro

/-- The value that a control register reads as. -/
def csrValue (s : State) (n : Nat) : Nat :=
  let c := s.img
  let k := s.core s.cur.1
  let loop (i : Nat) : Nat :=
    let e := if i < 3 then c.loops.e0 else c.loops.e1
    if i % 3 = 0 then 2 * e.start.toNat else if i % 3 = 1 then 2 * e.stop.toNat else e.count.toNat
  let trap (r : TrapRegs) (i : Nat) : Nat :=
    if i = 0 then r.cause.toNat else if i = 1 then r.pc.toNat else if i = 2 then r.addr.toNat else r.stat.toNat
  if n = 0x000 then c.fpCtrl.toNat else if n = 0x001 then c.fpFlags.toNat else if n = 0x002 then s.time.toNat
  else if n = 0x003 then s.cur.1 % 2 ^ 64 else if n = 0x004 then (s.stage (stageOf s.cur.1)).decGen.toNat
  else if n = 0x005 then s.cur.2 % 2 ^ 64 else if n = 0x006 then c.loops.depth.toNat
  else if n = 0x007 then (match c.mode with | .user => 0 | .supervisor => 1 | .firmware => 2)
  else if 0x008 ≤ n ∧ n ≤ 0x00F then (k.bank (n - 8)).toNat else if n = 0x010 then k.regs.hndBudget.toNat
  else if 0x020 ≤ n ∧ n ≤ 0x023 then trap c.trap (n - 0x020)
  else if n = 0x024 then 512 * k.regs.trapVec.toNat else if n = 0x025 then 256 * k.regs.trapSave.toNat
  else if n = 0x030 then
    match k.queues.dqFault with
    | none => 0
    | some f => k.queues.dqValid.toNat + 2 ^ 5 * f.entry.toNat + 2 ^ 9 * f.cause.toNat + 2 ^ 32 * f.offset.toNat
  else if 0x040 ≤ n ∧ n ≤ 0x045 then loop (n - 0x040)
  else if n = 0x060 then k.regs.preStat.toNat else if 0x070 ≤ n ∧ n ≤ 0x073 then trap k.regs.fw (n - 0x070)
  else if n = 0x080 then k.regs.snapTime.toNat else if n = 0x081 then k.regs.snapPc0.toNat
  else if n = 0x082 then k.regs.snapPc1.toNat else if n = 0x083 then k.regs.snapIssue.toNat else 0

/-- A trap register with a write to it: reserved bits stay zero, and the handler bit of the status is RO (R323). -/
def trapWritten (r : TrapRegs) (i : Nat) (v : Word) : TrapRegs :=
  if i = 0 then { r with cause := BitVec.ofNat 7 v.toNat } else if i = 1 then { r with pc := BitVec.ofNat 18 v.toNat }
  else if i = 2 then { r with addr := v }
  else { r with stat := (BitVec.ofNat 8 v.toNat &&& 0b11100011#8) ||| (r.stat &&& 0b00010000#8) }

/-- A loop entry's field written: bit 0 of start and end reads as zero (04 R58). -/
def loopWritten (l : LoopStack) (i : Nat) (v : Word) : LoopStack :=
  let e := if i < 3 then l.e0 else l.e1
  let e := if i % 3 = 0 then { e with start := BitVec.ofNat 17 (v.toNat / 2) }
    else if i % 3 = 1 then { e with stop := BitVec.ofNat 17 (v.toNat / 2) } else { e with count := BitVec.ofNat 32 v.toNat }
  if i < 3 then { l with e0 := e } else { l with e1 := e }

/-- The state after a write that the mode may make: what each register keeps of the value. -/
def csrWritten (s : State) (n : Nat) (v : Word) : State :=
  let c := s.img
  let k := s.core s.cur.1
  let r := k.regs
  let regs (r : CoreRegs) : State := s.setCore s.cur.1 { k with regs := r }
  let w := v.toNat
  if n = 0x000 then s.setImg { c with fpCtrl := BitVec.ofNat 13 (w % 8 + 256 * (w / 256 % 32)) }
  else if n = 0x001 then s.setImg { c with fpFlags := BitVec.ofNat 5 w }
  else if n = 0x006 then (if w % 4 = 3 then s else s.setImg { c with loops := { c.loops with depth := BitVec.ofNat 2 w } })
  else if 0x008 ≤ n ∧ n ≤ 0x00E then s.setCore s.cur.1 { k with bankFmt := Assoc.put 0#4 k.bankFmt (n - 8) (BitVec.ofNat 4 w) }
  else if n = 0x010 then regs { r with hndBudget := BitVec.ofNat 32 w }
  else if 0x020 ≤ n ∧ n ≤ 0x023 then s.setImg { c with trap := trapWritten c.trap (n - 0x020) v }
  else if n = 0x024 then regs { r with trapVec := BitVec.ofNat 9 (w / 512) }
  else if n = 0x025 then regs { r with trapSave := BitVec.ofNat 10 (w / 256) }
  else if n = 0x030 then (if w % 2 = 1 then s.clearFault s.cur.1 else s)
  else if 0x040 ≤ n ∧ n ≤ 0x045 then s.setImg { c with loops := loopWritten c.loops (n - 0x040) v }
  else if n = 0x060 then regs { r with preStat := BitVec.ofNat 2 w }
  else if 0x070 ≤ n ∧ n ≤ 0x073 then regs { r with fw := trapWritten r.fw (n - 0x070) v }
  else if n = 0x080 then regs { r with snapTime := v } else if n = 0x081 then regs { r with snapPc0 := v }
  else if n = 0x082 then regs { r with snapPc1 := v } else if n = 0x083 then regs { r with snapIssue := v }
  else s

/-- A bank's register may be given this value: it has it already, or no tile that is not empty lies in the bank (06 R93). -/
def bankFree (s : State) (b : Nat) (f : BitVec 4) : Prop :=
  let c := s.core s.cur.1
  b = 7 ∨ f = c.bank b ∨ ∀ p ∈ c.tiles, p.2.state ≠ 0#2 →
    ¬ meets p.2.base.toNat (tileRoom p.2.format.toNat p.2.size.toNat) (b * 0x8000) 0x8000

/-- The linear capability with L, S and C over a base and a length (R325). -/
def handlerCap (base length : Nat) : XReg :=
  ⟨BitVec.ofNat 128 (2 ^ 120 * 0b110010 + 2 ^ 63 * base + 2 ^ 32 * length), true, true⟩

/-- A TLB entry that TLBW takes (25 R353). -/
def entryOk (e : Quad) : Prop :=
  let b (lo n : Nat) : Nat := e.toNat / 2 ^ lo % 2 ^ n
  let low : Nat := if b 125 2 = 0 then 1 else if b 125 2 = 1 then 32 else 16384
  b 127 1 = 1 ∧ b 125 2 ≠ 3 ∧ b 57 7 = 0 ∧ b 0 16 = 0 ∧ b 16 41 % low = 0 ∧ b 64 40 % low = 0 ∧
    (b 108 1 = 1 → b 109 16 = 0 ∧ b 64 44 = 0)

/-- The bytes of an entry's page (R352). -/
def pageSize (e : Quad) : Nat :=
  let size := e.toNat / 2 ^ 125 % 4
  if size = 0 then 65536 else if size = 1 then 2097152 else 1073741824

/-- An entry maps a virtual address (R352): the address lies in its page. -/
def maps (e : Quad) (va : Nat) : Prop := va / pageSize e = e.toNat / 2 ^ 16 % 2 ^ 41 * 65536 / pageSize e

/-- The TLB that the second source of `tlbw` names (23 R332, 04 R57), of a unit that is present. -/
def tlbNamed (g : Grade) (w : Nat) : Option TlbId :=
  let body := w % 2 ^ 16
  let st := 40 * (body / 512) + 8 * (body / 64 % 8) + body / 8 % 8
  let stage := body < 2048 ∧ body / 64 % 8 < 5 ∧ g.noStage.contains st = false
  if w / 2 ^ 22 % 2 ^ 40 ≠ 0 then none
  else if w / 2 ^ 62 = 0 then
    if body < 16384 ∧ body / 128 < 80 ∧ g.noStage.contains (stageOf body) = false then some (.core body) else none
  else if w / 2 ^ 62 = 1 then
    if stage ∧ body % 8 = 4 then some (.copy st) else if stage ∧ body % 8 = 5 then some (.trav st) else none
  else if w / 2 ^ 62 = 2 then
    if body < 16 ∧ g.noRaster.contains (body % 4 * 4 + body / 4) = false then some (.raster (body % 4) (body / 4)) else none
  else none

/-- A TLB of the device. -/
def unitOk : TlbId → Prop
  | .core c => c < 16384
  | .copy st => st < 160
  | .trav st => st < 160
  | .raster d u => d < 4 ∧ u < 4

/-- A TLB's unit is in the issuer's partition; a raster unit serves every partition with a stage on its die (log 43). -/
def unitMine (s : State) : TlbId → Prop
  | .core c => s.samePart s.cur.1 c = true
  | .copy st => s.sameStage s.cur.1 st = true
  | .trav st => s.sameStage s.cur.1 st = true
  | .raster d _ => ∃ p, s.partOf s.cur.1 = some p ∧ ∃ st ∈ (s.part p).stages, st / 40 = d

/-- The context that a unit translates for: its partition; a raster unit's is that of the miss it serves, and the issuer's where
it serves none (log 43). -/
def unitContext (s : State) (c : Nat) : TlbId → Prop
  | .core k => c = (s.partOf k).getD 256
  | .copy st => c = (s.partOfStage st).getD 256
  | .trav st => c = (s.partOfStage st).getD 256
  | .raster d u => (∀ r ∈ s.reqs, ∀ c' p n a, r.body = .miss (.raster d u) c' p n a → c' = c) ∧
      (c = (s.partOf s.cur.1).getD 256 ∨ ∃ r ∈ s.reqs, ∃ p n a, r.body = .miss (.raster d u) c p n a)

/-- A TLB's list stands in its order: one entry for an index. -/
def rising (l : Assoc TlbEntry) : Prop := l.Pairwise fun x y => x.1 < y.1

end Sys2Proof.Claims
end

