-- ==== Sys2Proof/WellFormed.lean ====
section
/-!
DEFINITION. WellFormed.lean: the terms of Instr that the spec gives no effect of their own: an encoding whose operands the
spec calls illegal whatever the state (08 R134), and an event of something the device does not have. Each check has a name.
-/

namespace Sys2Proof

/-- What is wrong with a term. -/
inductive Malformed where
  | field              -- a field outside the values its rule gives
  | rounding           -- a rounding mode of 100 to 110 (05 R66)
  | condition          -- a long branch's condition 010 or 011 (09 R163)
  | streamRegister     -- a register that names no stream register (10 R183)
  | baseIsDestination  -- a post-increment load into its base (10 R180)
  | maskRegister       -- a mask register above m7 (11 R227)
  | lane               -- an element number the vector does not have (11 R227)
  | source             -- a source format that the conversion does not take (11 R217, R222)
  | csr                -- an unassigned control register (23 R322)
  | noCore             -- rows 80 to 127 name no core (01 R10)
  | noContext          -- contexts are 0 to 16 (03 R28)
  | noGenerator        -- generators are 0 to 3 (04 R54)
  | noStage            -- stages are 0 to 159 (01 R11)
  | noEngine           -- engines are 0 to 3 (01 R11)
  | noStream           -- streams are 0 to 255 (12 R239)
  | noCommand          -- copy commands are 0 to 63 (12 R253)
  | noDestination      -- destinations are 0 to 7 (12 R253)
  | noRay              -- ray slots are 0 to 1023 (14 R276)
  | noDie              -- dies are 0 to 3 (01 R10)
  | noRaster           -- raster units are 0 to 3 (16 R304)
  | noQueue            -- raster queues are 0 to 63 (16 R304)
  | noPartition        -- partitions are 0 to 255 (28 R394)
  | noEntry            -- queue entries are 0 to 15 (06 R86)
  | noStack            -- stacks are 0 to 11 (27 R382)
  | noPort             -- ports are 0 to 15, and 16 for the host link (28 R397)
  | noBlock            -- a block of the curtain that the device does not have (29 R416)
deriving DecidableEq, Repr

/-- A problem unless the test holds. -/
def need (b : Bool) (p : Malformed) : Option Malformed := if b then none else some p

def rounding (r : BitVec 3) : Option Malformed := need (decide (r.toNat < 4) || r == 7#3) .rounding

def streamRegister (d : XName) : Option Malformed := need (decide (24 ≤ d.toNat) && decide (d.toNat ≤ 27)) .streamRegister

def maskRegister (v : VName) : Option Malformed := need (decide (v.toNat < 8)) .maskRegister

def lane (l : BitVec 4) (e : BitVec 2) : Option Malformed := need (decide (l.toNat * 2 ^ e.toNat < 64)) .lane

def csr (n : BitVec 11) : Option Malformed := need (Machine.contextCsr n.toNat || Machine.coreCsr n.toNat) .csr

def aCore (c : Nat) : Option Malformed := need (Machine.isCore c) .noCore

def aStage (st : Nat) : Option Malformed := need (decide (st < 160)) .noStage

def aDie (d : Nat) : Option Malformed := need (decide (d < 4)) .noDie

def aPart (p : Nat) : Option Malformed := need (decide (p < 256)) .noPartition

/-- The first check that a term fails, if any. -/
def Instr.malformed (i : Instr) : Option Malformed :=
  match i with
  | .cget _ f _ => if f.toNat < 16 then none else some .field
  | .bL c _ _ _ => if c = 2#3 ∨ c = 3#3 then some .condition else none
  | .lbPostinc d a _ => if d = a.reg then some .baseIsDestination else none
  | .lhPostinc d a _ => if d = a.reg then some .baseIsDestination else none
  | .lwPostinc d a _ => if d = a.reg then some .baseIsDestination else none
  | .ldPostinc d a _ => if d = a.reg then some .baseIsDestination else none
  | .lbuPostinc d a _ => if d = a.reg then some .baseIsDestination else none
  | .lhuPostinc d a _ => if d = a.reg then some .baseIsDestination else none
  | .lwuPostinc d a _ => if d = a.reg then some .baseIsDestination else none
  | .lqPostinc d a _ => if d = a.reg then some .baseIsDestination else none
  | .sbind d _ _ _ => streamRegister d
  | .sbindA d _ _ _ => streamRegister d
  | .sunbind d => streamRegister d
  | .streamFetch core ctx gen => aCore core <|> need (decide (ctx < 17)) .noContext <|> need (decide (gen < 4)) .noGenerator
  | .fenceC p q => if p = 0#5 ∨ q = 0#5 then some .field else none
  | .fenceS p q => if p = 0#5 ∨ q = 0#5 then some .field else none
  | .fenceD p q => if p = 0#5 ∨ q = 0#5 then some .field else none
  | .fenceP p q => if p = 0#5 ∨ q = 0#5 then some .field else none
  | .fenceY p q => if p = 0#5 ∨ q = 0#5 then some .field else none
  | .ulmAtomic core => aCore core
  | .send d _ _ => if d = 0#5 then none else some .field
  | .sendL d _ _ _ _ r => if r || d == 0#5 then none else some .field
  | .fadd _ _ _ _ r => rounding r
  | .fsub _ _ _ _ r => rounding r
  | .fmul _ _ _ _ r => rounding r
  | .fdiv _ _ _ _ r => rounding r
  | .fsqrt _ _ _ r => rounding r
  | .fma _ _ _ _ r => rounding r
  | .fnma _ _ _ _ r => rounding r
  | .fcvt _ _ _ q r => if q = 5#3 ∨ q = 7#3 then some .source else rounding r
  | .fcvtInt _ _ _ q r => if q = 5#3 ∨ q = 7#3 then some .source else rounding r
  | .fcvtf _ _ _ _ r => rounding r
  | .vfadd _ _ _ _ r _ _ => rounding r
  | .vfsub _ _ _ _ r _ _ => rounding r
  | .vfmul _ _ _ _ r _ _ => rounding r
  | .vfma _ _ _ _ r _ _ => rounding r
  | .vfexpn _ _ _ r _ _ => rounding r
  | .vfrcp _ _ _ r _ _ => rounding r
  | .vfcvt _ _ s _ r _ _ => if s.toNat < 14 then rounding r else some .source
  | .vfcvtFp8 _ _ s _ r _ _ => if s.toNat < 14 then rounding r else some .source
  | .vfcvtInt _ _ s _ r _ _ => if s.toNat < 6 then rounding r else some .source
  | .vfcvtUint _ _ s _ r _ _ => if s.toNat < 6 then rounding r else some .source
  | .vld _ _ _ m _ => if m.toNat < 2 then none else some .field
  | .vst _ _ _ _ m _ => if m.toNat < 2 then none else some .field
  | .vldu _ _ m _ => if m.toNat < 3 then none else some .field
  | .vstu _ _ _ m _ => if m.toNat < 3 then none else some .field
  | .vgmax _ g _ _ _ e => if 2 ^ (g.toNat + 1) * 2 ^ e.toNat ≤ 64 then none else some .field
  | .vgmin _ g _ _ _ e => if 2 ^ (g.toNat + 1) * 2 ^ e.toNat ≤ 64 then none else some .field
  | .vcmp _ c _ _ _ _ e => if c.toNat < 6 ∨ 2 ≤ e.toNat then none else some .field
  | .vmovx _ l _ _ e => lane l e
  | .vins _ l _ e => lane l e
  | .mpop _ s => maskRegister s
  | .mfirst _ s => maskRegister s
  | .mgen d _ => maskRegister d
  | .segmentPlay stage stream => aStage stage <|> need (decide (stream < 256)) .noStream
  | .taskStart stage engine => aStage stage <|> need (decide (engine < 4)) .noEngine
  | .promotionBlock stage engine => aStage stage <|> need (decide (engine < 4)) .noEngine
  | .taskComplete stage engine => aStage stage <|> need (decide (engine < 4)) .noEngine
  | .taskDrain stage engine => aStage stage <|> need (decide (engine < 4)) .noEngine
  | .copyCommandStart stage => aStage stage
  | .copyDestinationFill stage cmd dest => aStage stage <|> need (decide (cmd < 64)) .noCommand <|> need (decide (dest < 8)) .noDestination
  | .copyCommandComplete stage cmd => aStage stage <|> need (decide (cmd < 64)) .noCommand
  | .walkerStep stage slot => aStage stage <|> need (decide (slot < 1024)) .noRay
  | .walkerFetch stage slot => aStage stage <|> need (decide (slot < 1024)) .noRay
  | .travAbort stage ctx => aStage stage <|> need (decide (ctx < 256)) .noPartition
  | .travReset stage ctx => aStage stage <|> need (decide (ctx < 256)) .noPartition
  | .travSdfWrite stage _ => aStage stage
  | .rasterRecord die unit queue => aDie die <|> need (decide (unit < 4)) .noRaster <|> need (decide (queue < 64)) .noQueue
  | .rasterQueueComplete die unit queue => aDie die <|> need (decide (unit < 4)) .noRaster <|> need (decide (queue < 64)) .noQueue
  | .csrr _ n => csr n
  | .csrw _ n => csr n
  | .csrx _ _ n => csr n
  | .curtainTimeout block => need (Machine.Grade.full.hasBlock block) .noBlock
  | .messageDequeue core => aCore core
  | .handlerBudget core => aCore core
  | .blockSwap core => aCore core
  | .quantumSwap core => aCore core
  | .slotSwapComplete core => aCore core
  | .dqEntryStart core => aCore core
  | .dqEntryComplete core entry => aCore core <|> need (decide (entry < 16)) .noEntry
  | .dqAccessFault core entry => aCore core <|> need (decide (entry < 16)) .noEntry
  | .dqFaultRecordWrite core => aCore core
  | .dqFaultClear core => aCore core
  | .deferredTrap core ctx => aCore core <|> need (decide (ctx < 17)) .noContext
  | .watchdog core => aCore core
  | .pagerWake part _ _ _ => aPart part
  | .gateAdmit die => aDie die
  | .rampEnd die => aDie die
  | .didtLimitWrite die _ => aDie die
  | .engRampWrite die _ => aDie die
  | .quiescenceDetected part => aPart part
  | .quiesceProbe part => aPart part
  | .preemptCommand part => aPart part
  | .preemptSave part => aPart part
  | .restoreCommand part => aPart part
  | .loopDepthWrite core ctx _ => aCore core <|> need (decide (ctx < 17)) .noContext
  | .bankFmtWrite core _ _ => aCore core
  | .periodicRefresh stack _ => need (decide (stack < 12)) .noStack
  | .rfmLevelWrite stack _ => need (decide (stack < 12)) .noStack
  | .rfmCreditWrite stack _ => need (decide (stack < 12)) .noStack
  | .compressionResetNotice core => aCore core
  | .flitReplay port => need (decide (port < 17)) .noPort
  | .linkRetrain port => need (decide (port < 17)) .noPort
  | .linkRetrainEnd port => need (decide (port < 17)) .noPort
  | .peerRequest port => need (decide (port < 17)) .noPort
  | .telemetryRecord die => aDie die
  | .wfiEndWithoutEvent core ctx => aCore core <|> need (decide (ctx < 17)) .noContext
  | .partitionReset part => aPart part
  | .add .. | .sub .. | .and .. | .or .. | .xor .. | .andn .. | .orn .. | .min .. | .max .. | .minu .. | .maxu .. | .slt
    .. | .sltu .. | .seq .. | .sel .. | .abs .. | .addi .. | .andi .. | .ori .. | .xori .. | .slti .. | .sltiu .. | .ldi
    .. | .ldiL .. | .shl .. | .shr .. | .sra .. | .rot .. | .fshl .. | .fshr .. | .shli .. | .shri .. | .srai .. | .roti
    .. | .clz .. | .ctz .. | .popc .. | .brev .. | .sext .. | .zext .. | .bext .. | .bins .. | .mul .. | .mulh .. |
    .mulhu .. | .mulhm .. | .div .. | .divu .. | .rem .. | .remu .. | .csetb .. | .cperm .. | .cinc .. | .cmesh .. |
    .ctest .. | .cclr .. | .cinci .. | .beq .. | .bne .. | .blt .. | .bge .. | .bltu .. | .bgeu .. | .jal .. | .jr .. |
    .jalr .. | .done | .yield | .nop | .waitf .. | .loop .. | .trap .. | .loopi .. | .lb .. | .lh .. | .lw .. | .ld .. |
    .lbu .. | .lhu .. | .lwu .. | .lq .. | .sb .. | .sh .. | .sw .. | .sd .. | .sq .. | .sbPostinc .. | .shPostinc .. |
    .swPostinc .. | .sdPostinc .. | .sqPostinc .. | .lea .. | .sstat .. | .dpull .. | .dpush .. | .dgath .. | .cwait ..
    | .cwaitReg .. | .cadd .. | .caddReg .. | .cset .. | .csetReg .. | .crd .. | .afence | .ifence | .aadd .. | .aand ..
    | .aor .. | .axor .. | .amin .. | .amax .. | .aminu .. | .amaxu .. | .aswp .. | .acas .. | .afadd .. | .afmin .. |
    .afmax .. | .radd .. | .aaddTz .. | .raddTz .. | .houseAtomic .. | .atomicReply .. | .bind .. | .rebind .. | .unbind
    .. | .spawn .. | .launch .. | .join .. | .leave .. | .barw .. | .bara .. | .bard .. | .barq .. | .quiesce |
    .groupRequest .. | .groupAnswer .. | .fmin .. | .fmax .. | .fcmp .. | .fclass .. | .fmvxJ .. | .fmvxN .. | .fmvxX ..
    | .vadd .. | .vsub .. | .vmul .. | .vmulh .. | .vmin .. | .vmax .. | .vminu .. | .vmaxu .. | .vand .. | .vor .. |
    .vxor .. | .vshl .. | .vshr .. | .vsra .. | .vfshl .. | .vfshr .. | .vclz .. | .vpopc .. | .vabs .. | .vsadd .. |
    .vssub .. | .vfmin .. | .vfmax .. | .vgath .. | .vscat .. | .vbcast .. | .vperm .. | .vredadd .. | .vredmax .. |
    .vredmin .. | .vscan .. | .vsel .. | .mand .. | .mor .. | .mxor .. | .mnot .. | .vslide .. | .tdecl .. | .tfree .. |
    .tgive .. | .ttake .. | .twait .. | .tstat .. | .tfmt .. | .ttrl .. | .tsub .. | .tqry .. | .xcopy .. | .skbc .. |
    .xstrm .. | .sbpld .. | .sbprd .. | .segmentReturn .. | .raynew .. | .raygo .. | .spsrc .. | .spins .. | .spsettle
    .. | .spdone .. | .sprd .. | .raystop .. | .rayfree .. | .rayUnitReply .. | .vbmin .. | .wgemit .. | .wgfin .. |
    .hcall .. | .eret | .wfi | .tlbw .. | .tlbi .. | .tlbp .. | .ctxsv .. | .ctxld .. | .snap .. | .curtainFall | .cMov
    .. | .cAdd .. | .cSub .. | .cAddi .. | .cLdi .. | .cLw .. | .cSw .. | .cBeqz .. | .cBnez .. | .cJ .. | .cCwait .. |
    .cNop | .cDone | .cRet | .messageArrival .. | .messageRetry .. | .unboundTimeout .. | .startMessage .. |
    .spawnRequest .. | .spawnAnswer .. | .counterBump .. | .divideComplete .. | .mapAccess .. | .loadReply .. |
    .scopeMiss .. | .translationTimeout .. | .faultClimb .. | .routerWake .. | .agentWake .. | .queueRecordWrite .. |
    .pgqWrite .. | .hostLaunchRecord .. | .headerRead .. | .kernelPlacement .. | .kernelRetire .. | .registerWrite .. |
    .dramRead .. | .dramWrite .. | .coldStart | .warmStart | .liveUpdate | .illegalInstruction | .attestationQuote .. |
    .orderlyShutdown => none

/-- A term that the spec gives an effect. -/
def Instr.wellFormed (i : Instr) : Bool := i.malformed.isNone

end Sys2Proof
end

