-- ==== Sys2Proof/Certificates/Slice0/Obligations.lean ====
section
/-!
DEFINITION. Obligations.lean: the statements about the model that are to be proved. Each docstring names the rules of spec/ that its
parts formalise; the functions of Sys2Proof/Claims/ write out the tables of those rules.
-/

section

open Sys2Proof Sys2Proof.Machine Sys2Proof.Claims

/-! ## The machine as a whole -/

/-- What reset leaves. The spec gives `hnd.budget` 65,536 (03 R24), counters 0 (04 R56), the tile table empty (R57), and `trav.sdf` and
`didt.limit` at their values (15 R299, 26 R376). That every slot is free, that nothing is bound or on its way, that the decode tables have
generation 1, and what memory holds, is the model's own choice (logs 3 and 4). -/
def Obligations.ResetState : Prop :=
  let s := State.reset
  (∀ core k, (s.thread core k).slot.status = .free ∧ (s.thread core k).img.loops.depth = 0#2) ∧
  (∀ core, (s.core core).regs.hndBudget = 65536#32 ∧ (∀ n, (s.core core).counter n = ⟨0#8, 0#32⟩) ∧
    (∀ n, ((s.core core).tile n).state = 0#2) ∧ (s.core core).bindings = [] ∧ (s.core core).activation = none) ∧
  (∀ d, (s.die d).didt = 1023#10 ∧ (s.die d).engRamp = 264#12) ∧
  (∀ st v, ((s.stage st).travCtx v).eps = 0x3A83126F#32 ∧ ((s.stage st).travCtx v).limit = 64#16) ∧
  (∀ st, (s.stage st).halted = 0 ∧ (s.stage st).tasks = [] ∧ (s.stage st).decGen = 1#16) ∧ (∀ p, (s.part p).state = 0#2 ∧ (s.part p).store = []) ∧
  s.reqs = [] ∧ s.mem = [] ∧ s.dram = [] ∧ s.tags = [] ∧ s.memoryOk

/-- 08 R126, R127, 06 R96: a core that issues runs the instruction that the words at its context's pc decode to, which it takes from its
fetch buffer where that holds them, and else from memory, the pc's block with them; the context stands as current. (Waits that ended and
quiet cycles are settled after it: log 1.) -/
def Obligations.StepRunsDecoded : Prop :=
  ∀ (s : State) (core ctx n size : Nat) (i : Instr) (rest : List Choice) (words : List Byte) (w : State),
    s.agenda = ⟨.issue core, n, false, none, []⟩ :: rest →
    let s' : State := { s with agenda := rest }
    let u := s'.tick (s'.passing n)
    let t := u.thread core ctx
    let pc := t.img.pc.toNat
    let off := pc / 4 * 4
    let v := if ctx = 16 then u else u.setCore core { u.core core with rr := ctx }
    (u.partOf core).isSome = true → u.pick core = some ctx → t.deferredDue = false → t.slot.soft = none →
    u.budgetDue core = false → (u.stage (stageOf core)).decExt = [] → pc % 2 = 0 → off + 8 ≤ 0x40000 →
    (t.img.mode = .user → off + 8 ≤ 0x38000) →
    ((u.core core).fetch = none ∧ words = u.readBytes (ulmAddr core off) 8 ∧
      w = v.setCore core { v.core core with fetch := some (off / 32 * 32, v.readBytes (ulmAddr core (off / 32 * 32)) 32) } ∨
     ∃ base bs, (u.core core).fetch = some (base, bs) ∧ base ≤ off ∧ off + 8 ≤ base + bs.length ∧
      words = (bs.drop (off - base)).take 8 ∧ w = v) →
    decodeAt (wordOfBytes words) (wordOfBytes (words.drop 4)) (pc % 4 == 2) = .ok (i, size) →
    step s = settled (exec i { w with cur := (core, ctx) })

/-- 08 R128, R130, R135: words written out from the encodings of the spec decode to the instructions they stand for. -/
def Obligations.DecodedWords : Prop :=
  decodeTableWord 32 0x004D5A83 = some (.add 21#5 ⟨21#5, false⟩ ⟨19#5, false⟩) ∧
  decodeTableWord 32 0x0809398B = some (.shli 19#5 ⟨19#5, false⟩ 2#6) ∧
  decodeTableWord 64 0x1234567B027C487F = some (.ldiL 9#5 0x1234567890#40) ∧
  decodeTableWord 32 0x6405F4AB = some (.lea 9#5 ⟨31#5, false⟩ 2#2 257#10) ∧
  decodeTableWord 32 0x00289127 = some (.sw ⟨9#5, false⟩ ⟨10#5, false⟩ 0#8) ∧
  decodeTableWord 32 0xC9594037 = some (.raddTz ⟨20#5, false⟩ ⟨22#5, false⟩ 9#6) ∧
  decodeTableWord 32 0x040C3033 = some (.fenceY 3#5 3#5) ∧
  decodeTableWord 32 0x8802454B = some (.vand 2#4 2#4 1#4 true 0#3 2#2) ∧
  decodeTableWord 32 0x0028925B = some (.tdecl 4#4 ⟨9#5, false⟩ false 5#6) ∧
  decodeTableWord 32 0x8000006B = some .eret ∧
  decodeTableWord 16 0xFF28 = some (.cAddi 1#3 0xFF#8) ∧
  decodeTableWord 32 0 = none

/-- 08 R127 to R138, R166: decoding the words of a well-formed instruction gives it back, for every operand its encoding holds: a 32-bit
word, the two words of a long instruction, and a compact halfword in either half of its word. -/
def Obligations.DecodeEncode : Prop :=
  ∀ (i : Instr) (c : Sys2Proof.Code), i.wellFormed = true → encode i = some c →
    match c with
    | .word w => decodeTableWord 32 w.toNat = some i ∧ ∀ w2, decodeAt w w2 false = .ok (i, 4)
    | .long w w2 => decodeTableWord 64 (w.toNat + 2 ^ 32 * w2.toNat) = some i ∧ decodeAt w w2 false = .ok (i, 8)
    | .half h => ∀ (g : BitVec 16) (w2 : BitVec 32), g.getLsbD 0 = false →
        decodeAt (g ++ h) w2 false = .ok (i, 2) ∧ decodeAt (h ++ g) w2 true = .ok (i, 2)

/-- The ULM and DRAM stay in their canonical form over every step. -/
def Obligations.MemoryFormKept : Prop :=  ∀ s t : State, s.memoryOk → step s = .next t → t.memoryOk

/-! ## Integer instructions -/

/-- R143, R144, R146, R148, R149 (two sources): the result of the table, wrapped modulo 2^64, untagged and full, for registers
and for bound streams as sources; x0 discards it; nothing else changes.

R143, R144, R146 (one source, or a source and an immediate) and R144, R145 (a constant).

R143 (`sel`), R147 and R148 (`bins`): the instructions that read their destination's old value as well. -/
def Obligations.IntegerResults : Prop :=
  (∀ (s : State) (i : Instr) (d : XName) (a b : Src) (f : Word → Word → Word),
     twoSources i = some (d, a, b, f) →
     s.img.writable d → s.readable a.reg → s.readable b.reg →
     exec i s = .next (s.completes (s.setImg ((s.img.popped2 a.reg b.reg).putWord d (f (s.img.word a.reg) (s.img.word b.reg)))))) ∧
  ((∀ (s : State) (i : Instr) (d : XName) (a : Src) (f : Word → Word),
     oneSource i = some (d, a, f) → s.img.writable d → s.readable a.reg →
     exec i s = .next (s.completes (s.setImg ((s.img.popped a.reg).putWord d (f (s.img.word a.reg)))))) ∧
   (∀ (s : State) (i : Instr) (d : XName) (v : Word),
     constant i = some (d, v) → s.img.writable d → exec i s = .next (s.completes (s.setImg (s.img.putWord d v))))) ∧
  (∀ (s : State) (i : Instr) (d : XName) (a b : Src) (f : Word → Word → Word → Word),
     oldDest i = some (d, a, b, f) →
     s.img.writable d → s.ordered d.toNat → s.readable a.reg → s.readable b.reg →
     exec i s = .next (s.completes (s.setImg
       ((s.img.popped2 a.reg b.reg).putWord d (f (s.img.word d) (s.img.word a.reg) (s.img.word b.reg))))))

/-- R149 to R151: a division marks its destination empty and its quotient or remainder, that of R150 in the borderline cases,
is on its way to it; with x0 as destination nothing is marked and nothing is on its way. -/
def Obligations.DivisionIssues : Prop :=
  ∀ (s : State) (i : Instr) (d : XName) (a b : Src) (f : Word → Word → Word),
    quotient i = some (d, a, b, f) →
    s.img.writable d → s.readable a.reg → s.readable b.reg →
    exec i s = .next (s.completes (
      let t := s.setImg ((s.img.popped2 a.reg b.reg).emptied d)
      if d = 0#5 then t
      else t.push ⟨0, s.cur.1, s.cur.2, s.curThread.slot.epoch, none, .core s.cur.1, [],
        .divide (.x d 8 false false) (f (s.img.word a.reg) (s.img.word b.reg))⟩))

/-- 09 R142: an integer instruction, whatever it comes to, changes no byte of memory and no tag, no vector or mask register, no FP
control or flag, no other context and no x register but its destination, and x29 where it traps. -/
def Obligations.IntegerFrame : Prop :=
  ∀ (s t : State) (i : Instr) (d : XName), integerDest i = some d → s.img.unbound d → s.cur.2 < 32 → exec i s = .next t →
    t.mem = s.mem ∧ t.tags = s.tags ∧ t.dram = s.dram ∧ t.cur = s.cur ∧
    (∀ r : Fin 32, r ≠ d.toFin → r ≠ 29 → t.img.x[r] = s.img.x[r]) ∧ t.img.v = s.img.v ∧ t.img.m = s.img.m ∧
    t.img.fpCtrl = s.img.fpCtrl ∧ t.img.fpFlags = s.img.fpFlags ∧
    (t.img.x[(29 : Fin 32)] = s.img.x[(29 : Fin 32)] ∨ d = 29#5 ∨ t.img.mode ≠ .user) ∧
    (∀ k, k < 32 → k ≠ s.cur.2 → t.thread s.cur.1 k = s.thread s.cur.1 k) ∧
    ∀ core, (t.core core).counters = (s.core core).counters ∧ (t.core core).tiles = (s.core core).tiles ∧
      (t.core core).queues = (s.core core).queues ∧ (t.core core).bindings = (s.core core).bindings

/-- R147: the funnel shifts take 64 bits out of the 128-bit string that d's old value and s1 form, d above in `fshl` and below in
`fshr`, shifted by s2[5:0]; with a count of 0 each leaves d's value unchanged. -/
def Obligations.FunnelShifts : Prop :=
  ∀ (s : State) (d : XName) (a b : Src), s.img.writable d → s.ordered d.toNat → s.readable a.reg → s.readable b.reg →
    let old := (s.img.word d).toNat
    let x := (s.img.word a.reg).toNat
    let n := (s.img.word b.reg).toNat % 64
    let high := (old * 2 ^ 64 + x) * 2 ^ n / 2 ^ 64 % 2 ^ 64
    let low := (x * 2 ^ 64 + old) / 2 ^ n % 2 ^ 64
    let put (v : Nat) : State := s.completes (s.setImg ((s.img.popped2 a.reg b.reg).putWord d (BitVec.ofNat 64 v)))
    exec (.fshl d a b) s = .next (put high) ∧ exec (.fshr d a b) s = .next (put low) ∧
      (n = 0 → high = old ∧ low = old)

/-- R148: `bext` reads, and `bins` writes, the field at p = s2[5:0] of length len = s2[14:8], at most 64; bits of s1 past 63 read as
zero, and bits past 63 of the result are dropped. -/
def Obligations.BitFields : Prop :=
  ∀ (s : State) (d : XName) (a b : Src), s.img.writable d → s.ordered d.toNat → s.readable a.reg → s.readable b.reg →
    let old := s.img.word d
    let x := (s.img.word a.reg).toNat
    let y := (s.img.word b.reg).toNat
    let p := y % 64
    let len := min (y / 256 % 128) 64
    let mask : Word := BitVec.ofNat 64 ((2 ^ len - 1) * 2 ^ p)
    let field : Word := BitVec.ofNat 64 (x % 2 ^ len * 2 ^ p)
    let got : Word := BitVec.ofNat 64 (x / 2 ^ p % 2 ^ len)
    let new : Word := (old &&& ~~~mask) ||| field
    let put (v : Word) : State := s.completes (s.setImg ((s.img.popped2 a.reg b.reg).putWord d v))
    exec (.bext d a b) s = .next (put got) ∧ exec (.bins d a b) s = .next (put new) ∧
      (len = 0 → got = 0#64 ∧ new = old)

/-- R145: `ldi.l` has long-major 0, d and the immediate where the table places them in its two words, and writes the immediate
sign-extended from 40 bits. -/
def Obligations.LongConstants : Prop :=
  ∀ (d : XName) (i : BitVec 40),
    let w : BitVec 32 := 0#5 ++ d ++ i.extractLsb' 0 15 ++ 127#7
    let w2 : BitVec 32 := i.extractLsb' 15 25 ++ 123#7
    encode (.ldiL d i) = some (.long w w2) ∧ decodeAt w w2 false = .ok (.ldiL d i, 8) ∧
    ∀ s : State, s.img.writable d →
      exec (.ldiL d i) s = .next (s.completes (s.setImg (s.img.putWord d (BitVec.ofInt 64 i.toInt))))

/-- R54, 10 R184: the result of an integer instruction whose destination is bound to an appending generator is stored at the
generator's next element in the core's own ULM, the low bytes of the result, and the generator goes on by one element; no x
register is written.

R52: an instruction whose destination is empty waits at issue with nothing changed; so does one whose source is empty with
its wait bit clear, and with its wait bit set it traps "empty operand" with the register's number.

R54, 09 R142: `sel`, `fshl`, `fshr` and `bins` trap "stream direction", with the register's number, when their destination
is bound to a generator of either kind.

04 R53, 07 R97, R101: to read a register that a window wrote is a class r event: an `addi` from it waits while a fence of the task
holds r events back, and completes when none does, the register's write now read. -/
def Obligations.OperandRules : Prop :=
  ((∀ (s : State) (i : Instr) (d : XName) (a b : Src) (f : Word → Word → Word) (k : Fin 4) (off : Nat),
     twoSources i = some (d, a, b, f) → appends s d k off → s.readable a.reg → s.readable b.reg →
     exec i s = .next (s.completes
       (element s (s.img.popped2 a.reg b.reg) k off (f (s.img.word a.reg) (s.img.word b.reg))))) ∧
   (∀ (s : State) (i : Instr) (d : XName) (a : Src) (f : Word → Word) (k : Fin 4) (off : Nat),
     oneSource i = some (d, a, f) → appends s d k off → s.readable a.reg →
     exec i s = .next (s.completes (element s (s.img.popped a.reg) k off (f (s.img.word a.reg))))) ∧
   (∀ (s : State) (i : Instr) (d : XName) (v : Word) (k : Fin 4) (off : Nat),
     constant i = some (d, v) → appends s d k off → exec i s = .next (s.completes (element s s.img k off v)))) ∧
  (∀ (s : State) (i : Instr) (d : XName) (a b : Src) (f : Word → Word → Word),
     twoSources i = some (d, a, b, f) →
     (s.img.unbound d → d ≠ 0#5 → (s.img.x[d.toFin]).full = false → exec i s = .next s.stalls) ∧
     (s.img.writable d → s.img.unbound a.reg → a.reg ≠ 0#5 → (s.img.x[a.reg.toFin]).full = false →
       exec i s = .next (if a.mark then s.traps Cause.emptyOperand (a.reg.setWidth 64) else s.stalls)) ∧
     (s.img.writable d → s.readable a.reg → s.img.unbound b.reg → b.reg ≠ 0#5 → (s.img.x[b.reg.toFin]).full = false →
       exec i s = .next (if b.mark then s.traps Cause.emptyOperand (b.reg.setWidth 64) else s.stalls))) ∧
  (∀ (s : State) (i : Instr) (d : XName) (a b : Src) (f : Word → Word → Word → Word) (k : Fin 4),
     oldDest i = some (d, a, b, f) → s.img.genOf d = some k →
     exec i s = .next (s.traps Cause.streamDirection (d.setWidth 64))) ∧
  (∀ (s : State) (d : XName) (a : Src) (i : BitVec 11), s.img.writable d → s.img.unbound a.reg → (s.img.x[a.reg.toFin]).full = true →
     s.img.isWindowed a.reg.toNat = true →
     (s.fenceWaits .r ≠ [] → exec (.addi d a i) s = .next s.stalls) ∧
     (s.fenceWaits .r = [] → exec (.addi d a i) s = .next (s.completes (s.setImg ((s.img.unwindow a.reg.toNat).putWord d
       (BitVec.ofInt 64 ((s.img.word a.reg).toInt + i.toInt)))))))

/-! ## Control flow and tasks -/

/-- R161, R163: a branch not at a loop's end goes to wrap(pc + 2 × offset, 18) where its condition holds on bits 63:0 of its
sources, and on to the next instruction where it does not; it writes no register, and its reserved cond codes are illegal.

R162, R164: `jal` and `c.j` go to wrap(pc + 2 × offset, 18); `jr`, `jalr` and `c.ret` go where their register says. The link
is pc + 4, untagged, written after the register is read. An odd target traps "branch into instruction". -/
def Obligations.BranchesAndJumps : Prop :=
  (∀ (s : State) (i : Instr) (c : BitVec 3) (a b : Src) (o : Int),
     branch i = some (c, a, b, o) → s.img.pc.getLsbD 0 = false → s.img.loops.endsAt s.img.pc = false →
     s.readable a.reg → s.readable b.reg →
     match condition c (s.img.word a.reg) (s.img.word b.reg) with
     | some true => exec i s = .next (s.jumps (s.setImg (s.img.popped2 a.reg b.reg)) (away s.img.pc o))
     | some false => exec i s = .next (s.completes (s.setImg (s.img.popped2 a.reg b.reg)))
     | none => exec i s = .next (s.traps Cause.illegal s.curWord)) ∧
  ((∀ (s : State) (i : Instr) (d : XName) (o : Int),
     jumpsAway i = some (d, o) → s.img.pc.getLsbD 0 = false → s.img.loops.endsAt s.img.pc = false → s.img.writable d →
     exec i s = .next (s.jumps (s.setImg (s.img.putWord d (s.img.pc.setWidth 64 + 4#64))) (away s.img.pc o))) ∧
   (∀ (s : State) (i : Instr) (d : XName) (a : Src) (t : Ulm),
     jumpsBy i = some (d, a) → s.img.loops.endsAt s.img.pc = false → s.img.writable d → s.readable a.reg →
     target (s.img.sourceVal a.reg) = some t →
     exec i s = .next (
       if t.getLsbD 0 then s.traps Cause.branchInto 0#64
       else s.jumps (s.setImg ((s.img.popped a.reg).putWord d (s.img.pc.setWidth 64 + 4#64))) t)))

/-- R43, R169: a branch, a jump, `done`, `yield` or `trap` at the end of an active loop traps "loop end control", whatever else
it could have done. That the end of either entry counts, not that of the top one alone, is read off the rules (log 30).

R42, R166 to R168: a count of zero goes on after the loop's end; an end before pc + 4 traps "loop range"; a full stack
traps "loop stack overflow"; else the loop (start, end, count) is pushed, start being the next instruction. That a count of zero is a
transfer, which pops the loops that do not hold its target, is read off the rules (log 30).

R42: after the instruction at the top loop's end the count is one less; while it is above 0 the loop's start is next, and at
0 the loop is popped and the outer one, where it ends there too, tested in the same way; where none goes on, the next instruction
follows. -/
def Obligations.HardwareLoops : Prop :=
  (∀ (s : State) (i : Instr), control i = true → s.img.loops.endsAt s.img.pc = true →
     exec i s = .next (s.traps Cause.loopEnd s.curWord)) ∧
  (∀ (s : State) (t : Context) (count : BitVec 32) (dist : BitVec 11) (i : Instr),
     ((∃ a, i = .loop a dist ∧ s.readable a.reg ∧ t = s.img.popped a.reg ∧
         count = ((s.img.sourceVal a.reg).val).setWidth 32) ∨
       (∃ n : BitVec 13, i = .loopi n dist ∧ t = s.img ∧ count = BitVec.ofNat 32 n.toNat)) →
     (dist.toNat < 2 → exec i s = .next (s.traps Cause.loopRange s.curWord)) ∧
     (2 ≤ dist.toNat → count = 0#32 →
       exec i s = .next (s.jumps (s.setImg t) (s.nextPc s.cur.1 (loopEnd s.img.pc dist)))) ∧
     (2 ≤ dist.toNat → count ≠ 0#32 → 2 ≤ s.img.loops.depth.toNat →
       exec i s = .next (s.traps Cause.loopOverflow s.curWord)) ∧
     (2 ≤ dist.toNat → count ≠ 0#32 → s.img.loops.depth.toNat < 2 →
       let e : LoopEntry :=
         ⟨(s.nextPc s.cur.1 s.img.pc).extractLsb' 1 17, (loopEnd s.img.pc dist).extractLsb' 1 17, count⟩
       exec i s = .next (s.completes (s.setImg { t with loops := s.img.loops.push e })))) ∧
  ((∀ (s : State), s.img.loops.depth = 1#2 → s.img.loops.e0.stopPc = s.img.pc →
     ∃ t, exec .nop s = .next t ∧
       t.img.loops.e0.count = s.img.loops.e0.count - 1#32 ∧
       (s.img.loops.e0.count ≠ 1#32 → t.img.pc = s.img.loops.e0.startPc ∧ t.img.loops.depth = 1#2) ∧
       (s.img.loops.e0.count = 1#32 → t.img.pc = s.nextPc s.cur.1 s.img.pc ∧ t.img.loops.depth = 0#2)) ∧
   ∀ (s : State), s.img.loops.depth = 2#2 → s.img.loops.e1.stopPc = s.img.pc →
     let l := s.img.loops
     ∃ t, exec .nop s = .next t ∧
       (l.e1.count ≠ 1#32 → t.img.pc = l.e1.startPc ∧ t.img.loops = { l with e1 := { l.e1 with count := l.e1.count - 1#32 } }) ∧
       (l.e1.count = 1#32 → l.e0.stopPc = s.img.pc → t.img.loops.e0 = { l.e0 with count := l.e0.count - 1#32 } ∧
         (l.e0.count ≠ 1#32 → t.img.pc = l.e0.startPc ∧ t.img.loops.depth = 1#2) ∧
         (l.e0.count = 1#32 → t.img.pc = s.nextPc s.cur.1 s.img.pc ∧ t.img.loops.depth = 0#2)) ∧
       (l.e1.count = 1#32 → l.e0.stopPc ≠ s.img.pc → l.e0.crossed s.img.pc (s.nextPc s.cur.1 s.img.pc) = false →
         t.img.pc = s.nextPc s.cur.1 s.img.pc ∧ t.img.loops.depth = 1#2 ∧ t.img.loops.e0 = l.e0))

/-- R170, R172 to R174: `nop` and `c.nop` change nothing but the pc; `trap code` traps "software trap" with the code, to go on
after itself; `waitf d` marks d empty for a window write and issues without waiting, x0 excepted, and on a register bound to an
appending generator it reserves the next element for that write, or waits for room (log 31); `yield` without a slot to bring in only
goes on, with one waits while another swap is under way (log 73), else swaps, and traps in a handler.

R171: `done` and `c.done` return inline where the inline register is valid (an odd address in it traps "branch into
instruction", 08 R126), end the activation in a handler, and otherwise free the thread's slot after it has left every group it
belongs to; the last two first let appending generators finish, and the deferred causes that are left go to the error queue
(24 R339). -/
def Obligations.TaskControl : Prop :=
  ((∀ s : State, exec .nop s = .next (s.completes s) ∧ exec .cNop s = .next (s.completes s)) ∧
   (∀ (s : State) (c : BitVec 11), s.img.loops.endsAt s.img.pc = false →
     exec (.trap c) s = .next (s.raise s.cur.1 s.cur.2 Cause.software (BitVec.ofNat 64 c.toNat) true)) ∧
   (∀ (s : State) (d : XName), s.img.writable d →
     exec (.waitf d) s = .next (s.completes (if d = 0#5 then s else s.setImg (s.img.emptied d)))) ∧
   (∀ (s : State) (d : XName) (k : Fin 4) (off : Nat), nextElement s.img d = some (k, off) → d ≠ 0#5 →
     exec (.waitf d) s = .next (
       if Gen.room ≤ (s.img.gens[k]).pending.length ∨ s.mayPublish = false then s.stalls
       else s.completes ((reservedState s s.img k).push ⟨0, s.cur.1, s.cur.2, s.curThread.slot.epoch, none, .core s.cur.1, [],
         .awaited d.toNat none (reservedDest s s.img k off 16 false true)⟩))) ∧
   (∀ s : State, s.img.loops.endsAt s.img.pc = false → s.cur.2 ≠ 16 → s.readyOut s.cur.1 = none →
     exec .yield s = .next (s.completes s)) ∧
   (∀ (s : State) (k : Nat), s.img.loops.endsAt s.img.pc = false → s.cur.2 ≠ 16 → s.readyOut s.cur.1 = some k →
     ((s.core s.cur.1).swap ≠ none ∨ s.img.appended = false) → exec .yield s = .next s.stalls) ∧
   (∀ (s : State) (k : Nat), s.img.loops.endsAt s.img.pc = false → s.cur.2 ≠ 16 → s.readyOut s.cur.1 = some k →
     (s.core s.cur.1).swap = none → s.img.appended = true →
     exec .yield s = .next (((s.retireTo s.cur.1 s.cur.2 (s.nextPc s.cur.1 s.img.pc)).startSwap s.cur.1 (some s.cur.2) k).countIssue
       s.cur.1 s.cur.2)) ∧
   (∀ s : State, s.img.loops.endsAt s.img.pc = false → s.cur.2 = 16 →
     exec .yield s = .next (s.traps Cause.blockingInHandler s.curWord))) ∧
  (∀ (s : State) (i : Instr), i = .done ∨ i = .cDone → s.img.loops.endsAt s.img.pc = false →
     (s.cur.2 ≠ 16 → s.img.inlineValid = true →
       exec i s = .next (
         if s.img.inlinePc.getLsbD 0 then s.traps Cause.branchInto 0#64
         else s.jumps (s.setImg { s.img with inlineValid := false, trap := s.img.trap.clearNest }) s.img.inlinePc)) ∧
     (s.cur.2 = 16 → s.img.appended = true →
       let t := s.postDeferred s.cur.1 s.curThread.slot.deferred
       exec i s = .next (((t.setCur s.curThread.freed).setCore s.cur.1 { s.core s.cur.1 with activation := none }).countIssue
         s.cur.1 s.cur.2)) ∧
     (s.cur.2 ≠ 16 → s.img.inlineValid = false → s.img.appended = true →
       ∃ t, exec i s = .next t ∧ t.curThread = s.curThread.freed ∧ t.mem = s.mem ∧
         ∀ g ∈ s.groupsOf s.cur.1 s.cur.2 s.curThread.slot.epoch,
           ∃ r ∈ t.reqs, r.core = s.cur.1 ∧ r.ctx = s.cur.2 ∧ r.body = .group .ended g 0#5 ∧
             r.place = .core (s.homeOf s.cur.1 g)))

/-! ## Loads, stores and capabilities -/

/-- R177, R50: a load from the core's own ULM writes d with the bytes at cursor + offset, sign- or zero-extended as the table
says; `lq` through a capability with C also takes the granule's tag.

R179, R50: a store to the core's own ULM writes the low n bytes of its data register at cursor + offset, the lowest byte
first; `sq` writes the register's tag, which asks for C where it is set, and every other store clears the granules' tags.

R180: a post-increment access is made at the cursor itself, and then the base's cursor is stepped as `cinci` steps it; a
store form whose data is its base stores the old value; a load form whose destination is its base is illegal.

R182: `lea` adds its scaled offset to an untagged value, and steps the cursor of a tagged one as `cinc` does, with no check
of bounds; kinds 10 and 11 trap "capability kind". -/
def Obligations.LocalAccesses : Prop :=
  (∀ (s : State) (i : Instr) (l : Load) (off : Int) (o : Nat),
     load i = some (l, off) → s.img.writable l.d → s.readable l.base.reg →
     localOffset s.img.mode (s.img.sourceVal l.base.reg) true false off l.n = some o → clear s .r o l.n →
     exec i s = .next (s.completes (s.setImg ((s.img.popped l.base.reg).put l.d
       (l.value ((List.range l.n).map fun k => s.readByte (ulmAddr s.cur.1 o + k)))
       (l.quad && Quad.hasC (s.img.sourceVal l.base.reg).val && s.tagAt (ulmAddr s.cur.1 o)))))) ∧
  (∀ (s : State) (i : Instr) (t : Store) (off : Int) (o : Nat),
     store i = some (t, off) → s.readable t.base.reg → s.readable t.data.reg →
     localOffset s.img.mode (s.img.sourceVal t.base.reg) false (t.quad && (s.img.sourceVal t.data.reg).tag) off t.n = some o →
     clear s .w o t.n →
     exec i s = .next (s.completes ((s.setImg (s.img.popped2 t.base.reg t.data.reg)).writeTagged (ulmAddr s.cur.1 o)
       (t.bytes (s.img.sourceVal t.data.reg).val) (t.quad && (s.img.sourceVal t.data.reg).tag)))) ∧
  ((∀ (s : State) (i : Instr) (l : Load) (step : Int) (o : Nat),
     loadStep i = some (l, step) → l.d ≠ l.base.reg → s.img.writable l.d → s.readable l.base.reg →
     localOffset s.img.mode (s.img.sourceVal l.base.reg) true false 0 l.n = some o → clear s .r o l.n →
     exec i s = .next (s.completes (s.setImg (stepped ((s.img.popped l.base.reg).put l.d
       (l.value ((List.range l.n).map fun k => s.readByte (ulmAddr s.cur.1 o + k)))
       (l.quad && Quad.hasC (s.img.sourceVal l.base.reg).val && s.tagAt (ulmAddr s.cur.1 o)))
       l.base.reg (s.img.sourceVal l.base.reg) step)))) ∧
   (∀ (s : State) (i : Instr) (l : Load) (step : Int), loadStep i = some (l, step) → l.d = l.base.reg →
     exec i s = .next (s.traps Cause.illegal s.curWord)) ∧
   (∀ (s : State) (i : Instr) (t : Store) (step : Int) (o : Nat),
     storeStep i = some (t, step) → s.readable t.base.reg → s.readable t.data.reg →
     localOffset s.img.mode (s.img.sourceVal t.base.reg) false (t.quad && (s.img.sourceVal t.data.reg).tag) 0 t.n = some o →
     clear s .w o t.n →
     exec i s = .next (s.completes
       ((s.setImg (stepped (s.img.popped2 t.base.reg t.data.reg) t.base.reg (s.img.sourceVal t.base.reg) step)).writeTagged
         (ulmAddr s.cur.1 o) (t.bytes (s.img.sourceVal t.data.reg).val) (t.quad && (s.img.sourceVal t.data.reg).tag))))) ∧
  (∀ (s : State) (d : XName) (a : Src) (sc : BitVec 2) (imm : BitVec 10), s.img.writable d → s.readable a.reg →
     let r := s.img.sourceVal a.reg
     let off := imm.toNat * 8 ^ sc.toNat
     exec (.lea d a sc imm) s = .next (
       if r.tag = false then s.completes (s.setImg ((s.img.popped a.reg).putWord d (BitVec.ofNat 64 ((Quad.low r.val).toNat + off))))
       else if Quad.kind r.val = 2#2 ∨ Quad.kind r.val = 3#2 then s.traps Cause.capKind 0#64
       else s.completes (s.setImg ((s.img.popped a.reg).put d (capStep r.val off) true))))

/-- What a store of bytes leaves (R50): the bytes at their addresses, every other byte as it was, no tag on a granule it
touches but the one it writes, every other granule's tag as it was. -/
def Obligations.StoredBytes : Prop :=
  ∀ (s : State) (a : Nat) (bs : List Byte) (tag : Bool), (tag = true → a % 16 = 0 ∧ bs.length = 16) →
    (∀ k, k < bs.length → (s.writeTagged a bs tag).readByte (a + k) = bs.getD k 0#8) ∧
    (∀ x, x < a ∨ a + bs.length ≤ x → (s.writeTagged a bs tag).readByte x = s.readByte x) ∧
    (∀ x, (∃ k, k < bs.length ∧ (a + k) / 16 = x / 16) → (s.writeTagged a bs tag).tagAt x = tag) ∧
    (∀ x, (∀ k, k < bs.length → (a + k) / 16 ≠ x / 16) → (s.writeTagged a bs tag).tagAt x = s.tagAt x) ∧
    (s.memoryOk → (s.writeTagged a bs tag).memoryOk)

/-- R49, R181 (24 R341): the checks of a load in their order, through a linear capability with G = 0: tag, kind, L, bounds,
alignment, and in user mode the wings with the payload exception of 06 R78. The first that fails traps precisely; the first four
record the offset from the cursor, the others the address. That a negative sum of cursor and offset fails the bounds is read off the
rule (log 9). -/
def Obligations.LoadChecks : Prop :=
  ∀ (s : State) (i : Instr) (l : Load) (off : Int), load i = some (l, off) → s.img.writable l.d → s.readable l.base.reg →
    let r := s.img.sourceVal l.base.reg
    let q := r.val
    let o : Int := (Quad.offset q).toNat + off
    let a : Int := (Quad.cursor q).toNat + off
    let inside := 0 ≤ o ∧ o + l.n ≤ (Quad.length q).toNat ∧ 0 ≤ a ∧ a + l.n ≤ 0x40000
    let linear := r.tag = true ∧ Quad.kind q = 0#2 ∧ Quad.hasG q = false
    (r.tag = false → exec i s = .next (s.traps Cause.untagged (BitVec.ofInt 64 off))) ∧
    (r.tag = true → Quad.kind q = 2#2 ∨ Quad.kind q = 3#2 → exec i s = .next (s.traps Cause.capKind (BitVec.ofInt 64 off))) ∧
    (linear → Quad.hasL q = false → exec i s = .next (s.traps Cause.capPermission (BitVec.ofInt 64 off))) ∧
    (linear → Quad.hasL q = true → ¬ inside → exec i s = .next (s.traps Cause.capBounds (BitVec.ofInt 64 off))) ∧
    (linear → Quad.hasL q = true → inside → a % l.n ≠ 0 →
      exec i s = .next (s.traps Cause.misaligned (BitVec.ofInt 64 a))) ∧
    (linear → Quad.hasL q = true → inside → a % l.n = 0 → s.img.mode = .user → 0x38000 < a + l.n →
      ¬ (Quad.hasS q = false ∧ 0x3F700 ≤ (Quad.base q).toNat ∧ (Quad.base q).toNat + (Quad.length q).toNat ≤ 0x3F800) →
      exec i s = .next (s.traps Cause.wings (BitVec.ofInt 64 a)))

/-- R177, R51, R179: an access that is not to the core's own ULM becomes a request of the task. A load marks d empty, unless it
is x0, and the value goes to it; a store goes with its bytes and, where R50 lets it, its tag, unless it would give a bank's
register a format that R93 refuses.

06 R80, R50: a request performed at its target. A read of ULM turns into the reply with its bytes, its tag kept only for a
capability with G; a write of ULM stores its bytes and is done with.

10 R177, R178, 09 R149: a value that arrives for a register of a task that is still there fills it: a load's bytes as the
table says, a quotient or remainder as it is; a value for a task that has gone is dropped. -/
def Obligations.MapAccesses : Prop :=
  ((∀ (s : State) (i : Instr) (l : Load) (off : Int) (adr : Nat),
     load i = some (l, off) → s.img.writable l.d → s.readable l.base.reg →
     goesThroughMap s (s.img.sourceVal l.base.reg) needL off l.n adr →
     exec i s = .next (s.completes ((s.setImg ((s.img.popped l.base.reg).emptied l.d)).push
       ⟨0, s.cur.1, s.cur.2, s.curThread.slot.epoch, some .r, placeOf adr, s.sameLocation adr l.n ++ s.fenceWaits .r,
         .read adr l.n (l.quad && Quad.hasC (s.img.sourceVal l.base.reg).val)
           (if l.d = 0#5 then .none else .x l.d l.n l.signed l.quad)⟩))) ∧
   (∀ (s : State) (i : Instr) (t : Store) (off : Int) (adr : Nat),
     store i = some (t, off) → s.readable t.base.reg → s.readable t.data.reg → s.curThread.slot.storeScope = none →
     goesThroughMap s (s.img.sourceVal t.base.reg) ⟨false, true, false, false, t.quad && (s.img.sourceVal t.data.reg).tag⟩ off t.n adr →
     (∀ b, refusedBank s adr (t.bytes (s.img.sourceVal t.data.reg).val) = some b →
       exec i s = .next (s.traps Cause.tileFormat (BitVec.ofNat 64 b))) ∧
     (refusedBank s adr (t.bytes (s.img.sourceVal t.data.reg).val) = none →
     let u := (s.setImg (s.img.popped2 t.base.reg t.data.reg)).suppress s.cur.1 adr t.n
     let v := s.img.sourceVal t.data.reg
     exec i s = .next (s.completes (u.push
       ⟨0, s.cur.1, s.cur.2, s.curThread.slot.epoch, some .w, placeOf adr, s.sameLocation adr t.n ++ u.fenceWaits .w,
         .write adr (t.bytes v.val)
           (t.quad && v.tag && (Quad.hasG v.val || (decide (adr < 17179869184) && adr / 1048576 == s.cur.1)))
           none (s.img.mode == .firmware)⟩))))) ∧
  (∀ (s : State) (id : Nat) (r : Req) (adr core off : Nat), s.req id = some r → s.mayRun r = true → s.storeHeld r = false →
     (∀ (n : Nat) (tags : Bool) (dst : Dest), r.body = .read adr n tags dst → windowOf s.grade adr n = .ulm core off →
       let bs := (List.range n).map fun k => s.readByte (adr + k)
       exec (.mapAccess id) s = .next (s.replace { r with
         body := .reply dst bs (tags && (n == 16 && s.tagAt adr) && Quad.hasG (BitVec.ofNat 128 (little bs))) })) ∧
     (∀ (bs : List Byte) (tag fw : Bool), r.body = .write adr bs tag none fw → bs ≠ [] →
       windowOf s.grade adr bs.length = .ulm core off →
       let u := (s.carry r.core r.place false bs).writeTagged adr bs (tag && bs.length == 16)
       exec (.mapAccess id) s = .next ((if r.ctx = systemHandler then u else u.unpend r.core r.ctx r.id).drop id))) ∧
  (∀ (s : State) (id : Nat) (r : Req), s.req id = some r →
     (∀ (l : Load) (bs : List Byte) (tag : Bool), r.body = .reply (.x l.d l.n l.signed l.quad) bs tag → bs.length = l.n →
       l.d ≠ 0#5 → s.service.curtain = none → (l.n = 1 ∨ l.n = 2 ∨ l.n = 4 ∨ l.n = 8 ∨ (l.n = 16 ∧ l.quad = true)) →
       exec (.loadReply id) s = .next (
         let t := s.thread r.core r.ctx
         let u := (s.carry r.core r.place true bs).drop r.id
         if s.present r = true then
           if t.slot.inCore r.ctx = true then
             u.setThread r.core r.ctx { t with img := t.img.put l.d (l.value bs) (l.quad && tag) }
           else u.pokeX r.core r.ctx l.d (l.value bs) (l.quad && tag) false
         else u)) ∧
     (∀ (d : XName) (v : Word), r.body = .divide (.x d 8 false false) v → d ≠ 0#5 →
       exec (.divideComplete id) s = .next (
         let t := s.thread r.core r.ctx
         if s.present r = true then
           if t.slot.inCore r.ctx = true then (s.drop r.id).setThread r.core r.ctx { t with img := t.img.putWord d v }
           else (s.drop r.id).pokeX r.core r.ctx d (v.setWidth 128) false false
         else s.drop r.id)))

/-- R154: `csetb` narrows its source to s2 bytes from its cursor, or traps "capability bounds".

R155: `cperm` keeps each of L, S, X, A and C only where its bit of s2[5:1] is 1, keeps G and every other bit, and with s2[6]
seals a linear capability that still has X.

R156 to R160: `cinc` and `cinci` step the cursor, `cmesh` builds a mesh capability from a linear one and a rectangle, `ctest`
answers the number of the first check of R49 that fails, `cclr` clears the tag alone, and `cget` reads a field. -/
def Obligations.CapabilityInstructions : Prop :=
  (∀ (s : State) (d : XName) (a b : Src), s.img.writable d → s.readable a.reg → s.readable b.reg →
     let r := s.img.sourceVal a.reg
     let q := r.val
     let c := Mesh.ofQuad q
     let n := (s.img.word b.reg).toNat
     let inside := if Quad.kind q = 0#2 then n ≤ 2 ^ 31 - 1 ∧ (Quad.offset q).toNat + n ≤ (Quad.length q).toNat
       else c.off.toNat + n ≤ c.sliceBase.toNat + c.sliceLen.toNat ∧ c.sliceBase ≤ c.off ∧ n ≤ 2 ^ 18 - 1
     (accepted r → inside → ∃ q',
       exec (.csetb d a b) s = .next (s.completes (s.setImg ((s.img.popped2 a.reg b.reg).put d q' true))) ∧
       (Quad.kind q = 0#2 → isLinear q' (Quad.perms q) (Quad.cursor q).toNat n 0) ∧
       (Quad.kind q = 1#2 → isMesh q' c c.off.toNat n c.col.toNat c.row.toNat c.off.toNat)) ∧
     (accepted r → ¬ inside → exec (.csetb d a b) s = .next (s.traps Cause.capBounds 0#64)) ∧
     (r.tag = false → exec (.csetb d a b) s = .next (s.traps Cause.untagged 0#64)) ∧
     (r.tag = true → ¬ accepted r → exec (.csetb d a b) s = .next (s.traps Cause.capKind 0#64))) ∧
  (∀ (s : State) (d : XName) (a b : Src), s.img.writable d → s.readable a.reg → s.readable b.reg →
     let r := s.img.sourceVal a.reg
     let q := r.val
     let m := s.img.word b.reg
     let p := Quad.perms q &&& (m.extractLsb' 0 6 ||| 1#6)
     accepted r →
     (m.getLsbD 6 = false → ∃ q', exec (.cperm d a b) s = .next (s.completes (s.setImg ((s.img.popped2 a.reg b.reg).put d q' true))) ∧
       Quad.kind q' = Quad.kind q ∧ Quad.perms q' = p ∧ q'.extractLsb' 0 120 = q.extractLsb' 0 120) ∧
     (m.getLsbD 6 = true → Quad.kind q = 0#2 → p.getLsbD 3 = true →
       ∃ q', exec (.cperm d a b) s = .next (s.completes (s.setImg ((s.img.popped2 a.reg b.reg).put d q' true))) ∧
         Quad.kind q' = 2#2 ∧ Quad.perms q' = p ∧ q'.extractLsb' 0 120 = q.extractLsb' 0 120) ∧
     (m.getLsbD 6 = true → Quad.kind q = 0#2 → p.getLsbD 3 = false →
       exec (.cperm d a b) s = .next (s.traps Cause.capPermission 0#64)) ∧
     (m.getLsbD 6 = true → Quad.kind q = 1#2 → exec (.cperm d a b) s = .next (s.traps Cause.capKind 0#64))) ∧
  (∀ (s : State) (d : XName) (a : Src), s.img.writable d → s.readable a.reg →
     let r := s.img.sourceVal a.reg
     let q := r.val
     (∀ b : Src, s.readable b.reg → accepted r → ∃ q',
       exec (.cinc d a b) s = .next (s.completes (s.setImg ((s.img.popped2 a.reg b.reg).put d q' true))) ∧
       isStepped q q' (s.img.word b.reg).toInt) ∧
     (∀ i : BitVec 11, accepted r → ∃ q',
       exec (.cinci d a i) s = .next (s.completes (s.setImg ((s.img.popped a.reg).put d q' true))) ∧ isStepped q q' i.toInt) ∧
     (∀ b : Src, s.readable b.reg → r.tag = true → Quad.kind q = 0#2 → Quad.hasG q = false →
       let m := (s.img.word b.reg).toNat
       let cols := if m / 2 ^ 14 % 128 = 0 then 128 else m / 2 ^ 14 % 128
       let fits := (Quad.base q).toNat + (Quad.length q).toNat ≤ 0x40000 ∧ (Quad.length q).toNat ≤ 0x3FFFF ∧
         m % 128 + cols ≤ 128 ∧ m / 128 % 128 + m / 2 ^ 21 % 128 ≤ 80
       (fits → (Quad.base q).toNat < 0x40000 → ∃ q', exec (.cmesh d a b) s = .next (s.completes (s.setImg ((s.img.popped2 a.reg b.reg).put d q' true))) ∧
         (Mesh.ofQuad q').baseCol.toNat = m % 128 ∧ (Mesh.ofQuad q').baseRow.toNat = m / 128 % 128 ∧
         (Mesh.ofQuad q').cols.toNat = m / 2 ^ 14 % 128 ∧ (Mesh.ofQuad q').rows.toNat = m / 2 ^ 21 % 128 ∧
         (Mesh.ofQuad q').perms = Quad.perms q ∧
         isMesh q' (Mesh.ofQuad q') (Quad.base q).toNat (Quad.length q).toNat (m % 128) (m / 128 % 128)
           (((Quad.base q).toNat + (Quad.offset q).toNat) % 2 ^ 18)) ∧
       (¬ fits → exec (.cmesh d a b) s = .next (s.traps Cause.capBounds 0#64))) ∧
     (∀ b : Src, s.readable b.reg →
       exec (.ctest d a b) s = .next (s.completes (s.setImg ((s.img.popped2 a.reg b.reg).putWord d
         (BitVec.ofNat 64 (firstFailure r ((s.img.word b.reg).extractLsb' 32 6) ((s.img.word b.reg).setWidth 32).toNat)))))) ∧
     exec (.cclr d a) s = .next (s.completes (s.setImg ((s.img.popped a.reg).put d q false))) ∧
     (∀ f : BitVec 11, f.toNat < 16 →
       exec (.cget d f a) s = .next (s.completes (s.setImg ((s.img.popped a.reg).putWord d (BitVec.ofNat 64 (field r f.toNat)))))))

/-- R159: `cclr` copies all 128 bits of its source to d and clears the tag. -/
def Obligations.ClearedTags : Prop :=
  ∀ (s : State) (d : XName) (a : Src), s.img.writable d → s.readable a.reg →
    exec (.cclr d a) s = .next (s.completes (s.setImg ((s.img.popped a.reg).put d (s.img.sourceVal a.reg).val false)))

/-- R183, R185, R186: `sbind` and `sbind.a` bind a free generator to an unbound stream register with a copy of s1, tag and all;
`sunbind` releases it and leaves the register untagged zero and full; `sstat` reads its status.

R184: a reading generator of a task that is there fetches its next element from the core's own ULM while it holds fewer than
four, once the stores the core issued before `sbind` are performed, those of reserved elements among them, and the task's accesses in
flight by local offsets and to the element's bytes (07 R102, R103). -/
def Obligations.Streams : Prop :=
  ((∀ (s : State) (d : XName) (g : BitVec 2) (a : Src) (e : BitVec 2), 24 ≤ d.toNat → d.toNat ≤ 27 →
     s.readable a.reg → s.img.writable d → (s.img.gens[g.toFin]).bound = false →
     let r := s.img.sourceVal a.reg
     let gen (append : Bool) (wait : List Nat) : Gen := ⟨true, append, e, BitVec.ofNat 2 (d.toNat - 24), r.val, r.tag, 0#32, [], wait⟩
     let t := s.img.popped a.reg
     exec (.sbind d g a e) s = .next (s.completes (s.setImg { t with gens := t.gens.set g.toFin (gen false (s.openStores s.cur.1)) })) ∧
     exec (.sbindA d g a e) s = .next (s.completes (s.setImg { t with gens := t.gens.set g.toFin (gen true []) }))) ∧
   (∀ (s : State) (d : XName) (g : BitVec 2) (a : Src) (e : BitVec 2), 24 ≤ d.toNat → d.toNat ≤ 27 →
     s.readable a.reg → s.img.genOf d ≠ none ∨ (s.img.gens[g.toFin]).bound = true →
     exec (.sbind d g a e) s = .next (s.traps Cause.streamBind (d.setWidth 64))) ∧
   (∀ (s : State) (d : XName) (k : Fin 4), s.img.genOf d = some k → ((s.img.gens[k]).append = false ∨ (s.img.gens[k]).pending = []) →
     exec (.sunbind d) s = .next (s.completes (s.setImg
       ({ s.img with gens := s.img.gens.set k Gen.free } |>.put d 0#128 false)))) ∧
   (∀ (s : State) (d : XName), 24 ≤ d.toNat → d.toNat ≤ 27 → s.img.unbound d → exec (.sunbind d) s = .next (s.completes s)) ∧
   (∀ (s : State) (d : XName) (g : BitVec 2), s.img.writable d → (s.img.gens[g.toFin]).fetched.length ≤ 4 →
     (s.img.gens[g.toFin]).pending.length ≤ 7 →
     exec (.sstat d g) s = .next (s.completes (s.setImg (s.img.putWord d (BitVec.ofNat 64 (statusOf s.img.gens[g.toFin]))))))) ∧
  (∀ (s : State) (core ctx : Nat) (i : Fin 4) (off : Nat),
     let t := s.thread core ctx
     let g := t.img.gens[i]
     let n := 2 ^ g.esize.toNat
     let u : State := { s with cur := (core, ctx) }
     g.bound = true → g.append = false → t.slot.inCore ctx = true → t.slot.status ≠ .free → (ctx ≠ 16 → s.slotHeld core ctx = false) →
     g.fetched.length < 4 → (∀ r ∈ g.pending, s.inFlight r = false) → t.slot.fences = [] → u.nearEvents = [] →
     u.sameLocation (ulmAddr core off) n = [] →
     localOffset t.img.mode (g.at (g.pos + BitVec.ofNat 32 (g.fetched.length * n))) true false 0 n = some off →
     exec (.streamFetch core ctx i.val) s = .next (s.setThread core ctx { t with img := { t.img with
       gens := t.img.gens.set i { g with
         fetched := g.fetched ++ [little ((List.range n).map fun k => s.readByte (ulmAddr core off + k))] } } }))

/-! ## Transfers, counters, fences, groups, atomics -/

/-- R187, R188: `dpull`, `dpush` and `dgath` complete with a free queue entry taken and nothing else changed: it names the bytes
of the core's own ULM, the virtual address, the length, and the counter with its core, which a pair in s2 may name; it follows
what fences in force and the task's earlier accesses to those bytes, an index list among them, order before it; a gather's indices
are yet to be read.

06 R86, R188: of the entries that have not started the one issued first starts, once what it follows is performed; a gather reads
its indices then. It makes its first lookup, or, with length zero, completes at once: the entry is free and its counter, of its own
core at once and of another by a message, is bumped.

06 R86, R87, 10 R187, R188: an access of an entry that hits moves the bytes from the first that is not yet performed on, as far as
granule, page and, for a gather, row go: a pull and a gather from DRAM into the core's own ULM, a push from there into DRAM, where
nothing outside the granule changes. The last one ends the entry as the length-zero entry ends.

06 R88: an access that is refused. A page fault leaves the entry suspended at the address that faulted, from the resume offset
on, which for a gather counts whole rows; with every other cause it is abandoned, its counter not bumped. The record says so, at once
or, while another is valid or waits, after those; an unresolvable one, once written, comes to its task as "DRAM transfer fault". The
record's valid bit clears by itself or by a supervisor, and the oldest waiting record is then written. -/
def Obligations.QueueTransfers : Prop :=
  (∀ (s : State) (d : XName) (c : BitVec 6) (a b : Src) (k : Nat),
     s.readable d → s.readable a.reg → s.readable b.reg → freeEntry (s.core s.cur.1).queues = some k →
     let cap := s.img.sourceVal d
     let q := cap.val
     let m := (s.img.word b.reg).toNat
     let va := (s.img.word a.reg).toNat
     let read := s.setImg (s.img.popped3 d a.reg b.reg)
     let own (load : Bool) (len : Nat) := cap.tag = true ∧ Quad.kind q = 0#2 ∧ Quad.hasG q = false ∧
       (if load then Quad.hasL q = true else Quad.hasS q = true) ∧ (Quad.offset q).toNat + len ≤ (Quad.length q).toNat ∧
       (Quad.cursor q).toNat + len ≤ 0x40000 ∧ (s.img.mode = .user → 0 < len → (Quad.cursor q).toNat + len ≤ 0x38000)
     let fresh (e : DqEntry) := e.ulm = (Quad.cursor q).toNat ∧ e.counter = c.toNat ∧ e.started = false ∧ e.done = 0 ∧
       e.suspended = none ∧ e.ctx = s.cur.2 ∧ e.epoch = s.curThread.slot.epoch ∧ e.joined = s.curThread.slot.afenced ∧
       e.id = s.nextId ∧ e.indices = [] ∧ e.order = (s.core s.cur.1).queues.dqOrder ∧
       ∀ r ∈ s.fenceWaits .q ++ s.sameLocation (ulmAddr s.cur.1 e.ulm) e.len, r ∈ e.after
     (∀ push : Bool, own push (m % 2 ^ 32) → va < 2 ^ 57 → m % 2 ^ 32 ≤ 2 ^ 24 → m < 2 ^ 47 →
       let pair := m / 2 ^ 32 % 2 ^ 14
       (2 ^ 46 ≤ m → isCore pair = true ∧ s.grade.noStage.contains (stageOf pair) = false ∧ s.samePart s.cur.1 pair = true) →
       ∃ e, exec (if push then .dpush d c a b else .dpull d c a b) s = .next (s.completes (enqueue read k e)) ∧ fresh e ∧
         e.kind = (if push then DqKind.push else DqKind.pull) ∧ e.va = va ∧ e.len = m % 2 ^ 32 ∧
         (∀ r ∈ s.sameAtomics va e.len, r ∈ e.after) ∧ e.target = if 2 ^ 46 ≤ m then pair else s.cur.1) ∧
     (let list := s.img.sourceVal b.reg
      let l := list.val
      let bytes := (Quad.length l).toNat - (Quad.offset l).toNat
      let x := va / 2 ^ 57
      list.tag = true → Quad.kind l = 0#2 → Quad.hasG l = false → Quad.hasL l = true →
      (Quad.offset l).toNat ≤ (Quad.length l).toNat → (Quad.cursor l).toNat + bytes ≤ 0x40000 →
      (s.img.mode = .user → 0 < bytes → (Quad.cursor l).toNat + bytes ≤ 0x38000) → bytes % 4 = 0 → 2 ≤ x → x ≤ 16 →
      own false (bytes / 4 * 2 ^ x) →
      ∃ e, exec (.dgath d c a b) s = .next (s.completes (enqueue read k e)) ∧ fresh e ∧ e.kind = .gather ∧
        e.va = va % 2 ^ 57 ∧ e.exp = x ∧ e.len = bytes / 4 * 2 ^ x ∧ e.list = (Quad.cursor l).toNat ∧ e.target = s.cur.1 ∧
        ∀ r ∈ s.sameLocation (ulmAddr s.cur.1 e.list) bytes, r ∈ e.after)) ∧
  (∀ (s : State) (core k : Nat) (e : DqEntry), (k, e) ∈ (s.core core).queues.dq → e.started = false →
     (∀ x ∈ (s.core core).queues.dq, x.2.started = false → x ≠ (k, e) → e.order < x.2.order) →
     ((∃ r ∈ e.after, s.inFlight r = true) → exec (.dqEntryStart core) s = .next s) ∧
     ((∀ r ∈ e.after, s.inFlight r = false) →
       let word (j : Nat) := little ((List.range 4).map fun i => s.readByte (ulmAddr core (e.list + 4 * j) + i))
       let f := { e with
         started := true, indices := if e.kind = .gather then (List.range (e.len / 2 ^ e.exp)).map word else [] }
       let u := s.setEntry core k f
       exec (.dqEntryStart core) s = .next (
         if e.len = 0 then entryEnds s core k e
         else if u.look (.core core) (u.contextOf core) (entryAddress f e.done) e.need = .miss then
           u.startMiss (.core core) (u.contextOf core) (entryAddress f 0) e.need
         else u))) ∧
  (∀ (s : State) (core k : Nat) (e : DqEntry) (p : DramAt),
     (s.core core).queues.dq.find k = some e → s.entryOpen core e = true →
     s.look (.core core) (s.contextOf core) (entryAddress e e.done) e.need = .hit p →
     let at' := ulmAddr core (e.ulm + e.done)
     let n := min (min p.run (if e.kind = .gather then 2 ^ e.exp - e.done % 2 ^ e.exp else e.len - e.done)) (p.page - p.phys % p.page)
     let after (u : State) : State :=
       if e.len ≤ e.done + n then entryEnds u core k e else u.setEntry core k { e with done := e.done + n }
     (e.kind ≠ .push → ∀ bs u, s.dramRead e.joined p n = (.ok bs, u) →
       exec (.dqEntryComplete core k) s = .next (after (u.writeBytes at' bs)) ∧ bs.length = n ∧
         (s.aliases = [] → bs = (List.range n).map fun j => u.dramByte (p.key + j))) ∧
     (e.kind = .push → ∀ u, s.dramWrite (core, e.ctx, e.epoch) p ((List.range n).map fun j => s.readByte (at' + j)) = (.ok (), u) →
       exec (.dqEntryComplete core k) s = .next (after u) ∧ u.mem = s.mem ∧ u.tags = s.tags ∧
         (s.memoryOk → ∀ j, j < n → Assoc.get 0#8 u.dram (p.key + j) = s.readByte (at' + j) ∧
           (p.tier = 0 → u.dramByte (p.key + j) = s.readByte (at' + j))) ∧
         (s.memoryOk → ∀ x, (x < p.key ∨ p.key + n ≤ x) → (p.tier = 0 → x < p.base ∨ p.base + granuleBytes p.gran ≤ x) →
           Assoc.get 0#8 u.dram x = Assoc.get 0#8 s.dram x))) ∧
  ((∀ (s : State) (core k : Nat) (e : DqEntry) (c : BitVec 7), (s.core core).queues.dq.find k = some e → s.entryOpen core e = true →
     s.look (.core core) (s.contextOf core) (entryAddress e e.done) e.need = .cause c →
     let q := (s.core core).queues
     let resume := if e.kind = .gather then e.done / 2 ^ e.exp * 2 ^ e.exp else e.done
     let va := entryAddress e e.done
     let f : DqFault := ⟨BitVec.ofNat 32 resume, c, BitVec.ofNat 4 k, BitVec.ofNat 64 va, decide (c = Cause.pageFault), e.ctx, e.epoch⟩
     ∃ t, exec (.dqAccessFault core k) s = .next t ∧
       (c = Cause.pageFault → (t.core core).queues.dq.find k = some { e with suspended := some va, done := resume }) ∧
       (c ≠ Cause.pageFault → (t.core core).queues.dq = q.dq.filter fun x => x.1 != k) ∧
       (t.core core).counters = (s.core core).counters ∧
       (q.dqValid = true ∨ q.dqWaiting ≠ [] →
         (t.core core).queues.dqWaiting = q.dqWaiting ++ [f] ∧ (t.core core).queues.dqFault = q.dqFault) ∧
       (q.dqValid = false → q.dqWaiting = [] →
         (t.core core).queues.dqFault = some f ∧ (t.core core).queues.dqValid = true ∧
         (c ≠ Cause.pageFault → (s.thread core e.ctx).slot.status ≠ .free → (s.thread core e.ctx).slot.epoch = e.epoch →
           (t.thread core e.ctx).slot.deferred =
             (s.thread core e.ctx).slot.deferred ++ [⟨Cause.dramTransfer, BitVec.ofNat 64 va, c⟩]))) ∧
   (∀ (s : State) (core : Nat), ∃ t, exec (.dqFaultClear core) s = .next t ∧ (t.core core).queues.dqValid = false ∧
     (t.core core).queues.dqFault = (s.core core).queues.dqFault ∧ (t.core core).queues.dq = (s.core core).queues.dq ∧
     (t.core core).queues.dqWaiting = (s.core core).queues.dqWaiting) ∧
   (∀ (s : State) (core : Nat) (f : DqFault) (rest : List DqFault), (s.core core).queues.dqValid = false →
     (s.core core).queues.dqWaiting = f :: rest →
     ∃ t, exec (.dqFaultRecordWrite core) s = .next t ∧ (t.core core).queues.dqFault = some f ∧
       (t.core core).queues.dqValid = true ∧ (t.core core).queues.dqWaiting = rest ∧
       (f.resolvable = false → (s.thread core f.ctx).slot.status ≠ .free → (s.thread core f.ctx).slot.epoch = f.epoch →
         (t.thread core f.ctx).slot.deferred = (s.thread core f.ctx).slot.deferred ++ [⟨Cause.dramTransfer, f.addr, f.cause⟩])))

/-- R190, R191, 04 R56: `cwait` goes on where the counter holds at least its value, and else holds until a change of the counter
makes it so, which ends the wait; `cadd` adds, and a nonzero step that makes the counter 0 sends its trigger message; `cset` sets value
and trigger; `crd` reads both; a bump that arrives adds. -/
def Obligations.Counters : Prop :=
  (∀ (s : State) (i : Instr) (n v : Nat) (t : State), waitsFor s i = some (n, v, t) → ready s i →
    exec i s = .next (
      if v ≤ (((s.core s.cur.1).counter n).value).toNat then s.completes t else s.rests t (.counter n v))) ∧
  (∀ (s : State) (core n v k : Nat) (c : Counter), k < 17 → (s.thread core k).slot.status = .blocked →
    (s.thread core k).slot.wait = .counter n v → v ≤ c.value.toNat →
    ((s.putCounter core n c).thread core k).slot.status = .ready) ∧
  (∀ (s : State) (i : Instr) (n : Nat) (step : BitVec 32) (t : State), addsTo s i = some (n, step, t) → ready s i →
    s.fenceWaits .q = [] → exec i s = .next (s.completes (t.addCounter s.cur.1 n step))) ∧
  (∀ (s : State) (i : Instr) (n : Nat) (v : BitVec 32) (trigger : Option (BitVec 8)) (t : State),
    sets s i = some (n, v, trigger, t) → ready s i → s.fenceWaits .q = [] →
    exec i s = .next (s.completes (t.putCounter s.cur.1 n
      ⟨trigger.getD ((s.core s.cur.1).counter n).trigger, v⟩))) ∧
  (∀ (s : State) (d : XName) (n : BitVec 6), s.img.writable d →
    exec (.crd d n) s = .next (s.completes (s.setImg (s.img.putWord d (BitVec.ofNat 64
      (((s.core s.cur.1).counter n.toNat).value.toNat + 2 ^ 32 * ((s.core s.cur.1).counter n.toNat).trigger.toNat)))))) ∧
  (∀ (s : State) (id core n times : Nat) (r : Req), s.req id = some r → r.body = .bump core n times →
    exec (.counterBump id) s = .next (((s.drop id).receive r.core core [BitVec.ofNat 32 times]).addCounter core n
      (BitVec.ofNat 32 times))) ∧
  (∀ (s : State) (core n : Nat) (step : BitVec 32),
    (∀ k, k < 17 → (s.thread core k).slot.wait ≠ .event ∧ ∀ v, (s.thread core k).slot.wait ≠ .counter n v) →
    let c := (s.core core).counter n
    let t := s.addCounter core n step
    (t.core core).counter n = { c with value := c.value + step } ∧
    t.reqs = s.reqs ++ (if step ≠ 0#32 ∧ c.value + step = 0#32 ∧ c.trigger ≠ 0#8 then
      [{ Req.device core (.message core ⟨c.trigger, 0x3FFF#14, [BitVec.ofNat 32 n, 0#32], false⟩ none) with
        place := .core core, id := s.nextId }] else []))

/-- R192, R193, 07 R101, R112: a fence makes the task's later events of a class in Q follow its events in flight of a class in P
aimed inside the scope (an atomic on a page of class UO only where P holds q, R107), the stores of reserved elements and the queue's
entries among them, drops nothing an earlier fence asks for, and gives later stores its scope when Q holds w; `fence.y rw, rw` orders every event (R106); an empty P or Q is illegal.

R194, 07 R108, 06 R96: `afence` goes on once the task has no write to DRAM in flight, and waits at issue before; it joins the
task's writes, and its later reads, to the other names of their bytes. `ifence` discards the core's fetch buffer. -/
def Obligations.FencesIssue : Prop :=
  (∀ (s : State) (i : Instr) (sc : Scope) (p q : BitVec 5), fence i = some (sc, p, q) →
     (p = 0#5 ∨ q = 0#5 → exec i s = .next (s.traps Cause.illegal s.curWord)) ∧
     (p ≠ 0#5 → q ≠ 0#5 → ∃ v : Slot, exec i s = .next (s.completes (s.setSlot v)) ∧
       v.storeScope = (if q.getLsbD 1 then some sc else s.curThread.slot.storeScope) ∧
       v.epoch = s.curThread.slot.epoch ∧ v.status = s.curThread.slot.status ∧
       (∀ c : Cls, ∀ id ∈ s.fenceWaits c, id ∈ (s.setSlot v).fenceWaits c) ∧
       (∀ c e : Cls, ∀ r ∈ s.reqs, r.core = s.cur.1 → r.ctx = s.cur.2 → r.epoch = s.curThread.slot.epoch → r.cls = some e →
         (p.getLsbD e.bit = true ∧ q.getLsbD c.bit = true ∧ (r.body.unordered = false ∨ p.getLsbD Cls.q.bit = true) ∧
             sc.holds s.cur.1 r.place = true) ∨ (sc = .system ∧ p = 3#5 ∧ q = 3#5) → r.id ∈ (s.setSlot v).fenceWaits c) ∧
       (∀ c : Cls, ∀ r ∈ s.reqs, s.isMine r = true → ∀ e, r.body.element = some e →
         (p.getLsbD 1 = true ∧ q.getLsbD c.bit = true ∧ sc.holds s.cur.1 (placeOf e.addr) = true) ∨
           (sc = .system ∧ p = 3#5 ∧ q = 3#5) → e.id ∈ (s.setSlot v).fenceWaits c) ∧
       (∀ c : Cls, ∀ x ∈ (s.core s.cur.1).queues.dq, x.2.ctx = s.cur.2 → x.2.epoch = s.curThread.slot.epoch →
         (p.getLsbD 2 = true ∧ q.getLsbD c.bit = true) ∨ (sc = .system ∧ p = 3#5 ∧ q = 3#5) →
         s.cores.any (fun e => e.2.queues.dq.any fun y => y.2.id == x.2.id) = true → x.2.id ∈ (s.setSlot v).fenceWaits c))) ∧
  (∀ s : State,
     exec .afence s = .next (if s.dramWrites = true then s.stalls else s.completes
       { s.setSlot { s.curThread.slot with afenced := true } with
         aliases := s.aliases.map fun (a : Alias) =>
           if a.writer = (s.cur.1, s.cur.2, s.curThread.slot.epoch) then { a with joined := true } else a }) ∧
     exec .ifence s = .next (s.completes (s.setCore s.cur.1 { s.core s.cur.1 with fetch := none })))

/-- R206, R207, 26 R378, 03 R23: a group instruction sends its request to the group's home core and holds until the answer;
`quiesce` holds until its partition is quiescent; both trap in a handler, but for `barq`.

03 R38 to R41, R207: every group request is handled by its home core. `join` starts a group, or joins the current phase before
any arrival and the next one after; `leave` and `done` cancel a pending join, take a member out, or let its arrival stand;
`barw`, `bara` and `bard` count an arrival, or refuse one that exceeds the phase; the last arrival completes the phase, and a
group without members is gone; `barq` answers the group's status. That "group full" counts the members whose join is pending and
those that have left after they arrived is the model's choice (log 73).

R206, R207, 23 R325: the answer of a group request completes the instruction that holds on it, `barq` with its status in d, or
traps it precisely: "barrier over-arrival" and "group full" record the group. -/
def Obligations.Groups : Prop :=
  ((∀ (s : State) (i : Instr) (op : GroupOp) (d : XName) (a : Src), groupForm i = some (op, d, a) → s.img.writable d →
     s.readable a.reg → (s.cur.2 ≠ 16 ∨ op = .barq) →
     let gid : BitVec 16 := (s.img.sourceVal a.reg).val.setWidth 16
     exec i s = .next (s.rests (((s.setImg (s.img.popped a.reg)).sent s.cur.1).push ⟨0, s.cur.1, s.cur.2, s.curThread.slot.epoch, some .m,
       .core (s.homeOf s.cur.1 gid), s.fenceWaits .m, .group op gid d⟩) (.answer s.nextId))) ∧
   (∀ s : State, s.cur.2 ≠ 16 → exec .quiesce s = .next (s.rests s .quiescence)) ∧
   (∀ (s : State) (i : Instr) (op : GroupOp) (d : XName) (a : Src), groupForm i = some (op, d, a) → op ≠ .barq → s.cur.2 = 16 →
     exec i s = .next (s.traps Cause.blockingInHandler s.curWord))) ∧
  (∀ (s : State) (id home : Nat) (r : Req) (op : GroupOp) (gid : BitVec 16) (dst : XName), s.req id = some r →
     s.mayRun r = true → r.body = .group op gid dst → r.place = .core home →
     let found := (s.core home).groups.find gid.toNat
     let me (m : Member) : Bool := m.core == r.core && m.ctx == r.ctx && m.epoch == r.epoch
     let mine := found.bind fun g => g.members.find? me
     let joining (pending : Bool) : Member := ⟨r.core, r.ctx, r.epoch, false, false, pending, none⟩
     ∃ t, exec (.groupRequest id) s = .next t ∧
       let after := (t.core home).groups.find gid.toNat
       let answers (ans : GroupAns) (d : XName) := ∃ q ∈ t.reqs, q.id = id ∧ q.core = r.core ∧ q.ctx = r.ctx ∧
         q.epoch = r.epoch ∧ q.body = .groupAnswer gid ans d
       (op = .join →
         (found = none → (s.core home).groups.length < 64 → after = some ⟨0#32, 1, [joining false]⟩ ∧ answers .ok dst) ∧
         (found = none → 64 ≤ (s.core home).groups.length → after = none ∧ answers .full dst) ∧
         (∀ g, found = some g → mine = none → g.members.length < 4096 →
           let begun := g.members.any fun m => m.arrived
           after = phaseAfter ⟨g.phase, if begun then g.expected else g.expected + 1, g.members ++ [joining begun]⟩ ∧
             answers .ok dst) ∧
         (∀ g, found = some g → mine = none → 4096 ≤ g.members.length → after = found ∧ answers .full dst) ∧
         (∀ m, mine = some m → m.leaving = false → after = found ∧ answers .ok dst) ∧
         (∀ g m, found = some g → mine = some m → m.leaving = true →
           after = phaseAfter { g with members := g.members.map fun x => if me x then { x with pending := true } else x } ∧
             answers .ok dst)) ∧
       (op = .leave ∨ op = .ended →
         (op = .leave → answers .ok dst) ∧ (mine = none → after = found) ∧
         (∀ g m, found = some g → mine = some m →
           after = phaseAfter (
             if m.pending = true ∧ m.leaving = false then { g with members := g.members.filter fun x => !me x }
             else if m.arrived = true then
               { g with members := g.members.map fun x => if me x then { x with leaving := true, pending := false } else x }
             else ⟨g.phase, g.expected - 1, g.members.filter fun x => !me x⟩))) ∧
       (op = .barw ∨ op = .bara ∨ op = .bard →
         let may (m : Member) : Prop := (m.pending = false ∨ m.leaving = true) ∧ m.arrived = false ∧ m.leaving = false
         (mine = none → after = found ∧ answers .over dst) ∧
         (∀ m, mine = some m → ¬ may m → after = found ∧ answers .over dst) ∧
         (∀ g m, found = some g → mine = some m → may m →
           let g' : Group := { g with members := g.members.map fun x => if me x then
             { x with arrived := true, leaving := decide (op = .bard), waiter := if op = .barw then some id else none } else x }
           after = phaseAfter g' ∧ (op ≠ .barw → answers .ok dst) ∧ (op = .barw → allArrived g' = true → answers .ok 0#5))) ∧
       (op = .barq → after = found ∧ answers (.status (statusOfGroup found mine)) dst)) ∧
  (∀ (s : State) (id : Nat) (r : Req) (gid : BitVec 16) (dst : XName), s.req id = some r →
     s.present r = true → (s.thread r.core r.ctx).slot.wait = .answer id → (s.thread r.core r.ctx).slot.inCore r.ctx = true →
     (s.thread r.core r.ctx).slot.saved = false →
     let t := s.thread r.core r.ctx
     let u := (s.drop id).receive (s.homeOf r.core gid) r.core [gid.setWidth 32]
     (r.body = .groupAnswer gid .ok dst → exec (.groupAnswer id) s = .next (u.retireSeq r.core r.ctx)) ∧
     (∀ v, r.body = .groupAnswer gid (.status v) dst → t.img.unbound dst →
       exec (.groupAnswer id) s =
         .next ((u.setThread r.core r.ctx { t with img := t.img.putWord dst v }).retireSeq r.core r.ctx)) ∧
     (r.body = .groupAnswer gid .over dst → t.pendingX 29#5 = false →
       exec (.groupAnswer id) s = .next (u.takeTrap r.core r.ctx Cause.barrierOver t.img.pc (gid.setWidth 64) false false)) ∧
     (r.body = .groupAnswer gid .full dst → t.pendingX 29#5 = false →
       exec (.groupAnswer id) s = .next (u.takeTrap r.core r.ctx Cause.groupFull t.img.pc (gid.setWidth 64) false false)))

/-- R311: a barrier's over-arrival traps with cause 0x32, the address of the arriving instruction and the group's ID. -/
def Obligations.OverArrivals : Prop :=
  ∀ (s : State) (id : Nat) (r : Req) (gid : BitVec 16) (dst : XName), s.req id = some r → s.present r = true →
    let t := s.thread r.core r.ctx
    t.slot.wait = .answer id → t.slot.inCore r.ctx = true → r.body = .groupAnswer gid .over dst → t.pendingX 29#5 = false →
    t.img.trap.stat.getLsbD 5 = false →
    ∃ u, exec (.groupAnswer id) s = .next u ∧ (u.thread r.core r.ctx).img.trap.cause = 0x32#7 ∧
      (u.thread r.core r.ctx).img.trap.pc = t.img.pc ∧ (u.thread r.core r.ctx).img.trap.addr = gid.setWidth 64

/-- R195, R196, 16 R303: an atomic on the own ULM, `vbmin` among them, becomes a request of a thread to the home of its address,
with d marked empty unless it is x0 or the form returns nothing; `acas` sends d's old value as the expected one. In a handler on
its home core it is performed as it issues (07 R104), with what its home does for others below.

R197, R198: the reply of an atomic ORs its flags into the flags of its task and fills its register.

R199: a trigger class of 0 is illegal. -/
def Obligations.AtomicsIssue : Prop :=
  (∀ (s : State) (i : Instr) (op : AOp) (n : Nat) (d : XName) (a b : Src) (k : BitVec 6) (adr : Nat),
     atomic i = some (op, n, d, a, b, k) → s.img.writable d → (op = .cas → s.ordered d.toNat) → s.readable a.reg →
     s.readable b.reg → (accessCheck (s.img.sourceVal a.reg) needA 0 n n s = .ok (.local adr, s) ∧ adr < 262144) →
     let m := ulmAddr s.cur.1 adr
     (s.cur.2 ≠ 16 →
       let u := s.setImg ((s.img.popped2 a.reg b.reg).emptied d)
       let v := u.suppress s.cur.1 m n
       exec i s = .next (s.completes (v.push ⟨0, s.cur.1, s.cur.2, s.curThread.slot.epoch, some .a, placeOf m,
         s.sameLocation m n ++ s.nearEvents ++ v.fenceWaits .a,
         .atomic ⟨op, n, (s.img.sourceVal b.reg).val, if op = .cas then (s.img.sourceVal d).val else 0#128, m, none,
           if d = 0#5 then .none else .x d (if op = .vbmin then 8 else n) (op == .min || op == .max) false, true, k⟩⟩))) ∧
     (s.cur.2 = 16 → op ≠ .vbmin → clear s .a adr n →
       let w := 8 * n
       let old := little ((List.range n).map fun j => s.readByte (m + j))
       let expect := if op = .cas then (s.img.sourceVal d).val.toNat % 2 ^ w else 0
       let new := written op w old ((s.img.sourceVal b.reg).val.toNat % 2 ^ w) expect
       let shown : Word := if op = .min ∨ op = .max then BitVec.ofInt 64 (ofBits w old) else BitVec.ofNat 64 old
       let u := s.setImg (s.img.popped2 a.reg b.reg)
       let t := triggers (if op = .cas ∧ old ≠ expect then u else u.writeTagged m (bytesOfNat n new.1) false) s.cur.1 k m new.1
       let c : Context := { t.img with fpFlags := t.img.fpFlags ||| new.2 }
       exec i s = .next (s.completes (t.setImg (if op = .radd then c else c.putWord d shown))))) ∧
  (∀ (s : State) (id n : Nat) (r : Req) (d : XName) (signed : Bool) (v : Quad) (fl : BitVec 5), s.req id = some r →
     r.body = .atomicReply (.x d n signed false) v fl none → s.present r = true → (s.thread r.core r.ctx).slot.inCore r.ctx = true →
     d ≠ 0#5 → (n = 4 ∨ n = 8) → v.toNat < 2 ^ (8 * n) →
     let t := s.thread r.core r.ctx
     let c : Context := { t.img with fpFlags := t.img.fpFlags ||| fl }
     let w : Word := if signed then BitVec.ofInt 64 (ofBits (8 * n) v.toNat) else BitVec.ofNat 64 v.toNat
     let u := (s.carry r.core r.place true (bytesOfNat 16 v.toNat)).drop id
     exec (.atomicReply id) s = .next (u.setThread r.core r.ctx { t with img := c.putWord d w })) ∧
  (∀ (s : State) (d : XName) (a b : Src),
     exec (.aaddTz d a b 0#6) s = .next (s.traps Cause.illegal s.curWord) ∧
     exec (.raddTz a b 0#6) s = .next (s.traps Cause.illegal s.curWord))

/-- R195, R196, R198, R199: the home of an atomic on ULM performs the one at the head of its inbox while no activation runs: the
number that the tables give stands at the address, no other byte changes, and the old value is on its way back with the flags; a new
value of 0 of a triggering atomic starts an activation of its class there.

R196 to R199, 27 R392: the house core, or the far end of a link that is up, performs an atomic on a DRAM location in the same
way, an activation starting on the issuing core; where the location gives no data it answers with the cause.

16 R302, R303: `vbmin` at its home replaces the stored sample exactly where the candidate wins, with -0.0 stored as +0.0, and
returns 1 or 0. -/
def Obligations.AtomicsPerformed : Prop :=
  (∀ (s : State) (core id : Nat) (rest : List InboxItem) (r : Req) (x : Atomic),
     (s.core core).queues.inbox = .atomic id :: rest → (s.core core).activation = none → s.req id = some r → r.body = .atomic x →
     x.op ≠ .vbmin → (x.bytes = 4 ∨ x.bytes = 8) → (x.trigger = 0#6 ∨ x.op = .add ∨ x.op = .radd) →
     let w := 8 * x.bytes
     let old := little ((List.range x.bytes).map fun k => s.readByte (x.addr + k))
     let new := written x.op w old (x.value.toNat % 2 ^ w) (x.expect.toNat % 2 ^ w)
     let q := (s.core core).queues
     let u := s.setQueues core { q with inbox := rest }
     let t := if x.op = .cas ∧ old ≠ x.expect.toNat % 2 ^ w then u else u.writeTagged x.addr (bytesOfNat x.bytes new.1) false
     exec (.ulmAtomic core) s = .next ((triggers t (x.addr / 2 ^ 20 % 2 ^ 14) x.trigger x.addr new.1).replace
       { r with body := .atomicReply x.dst (BitVec.ofNat 128 old) new.2 none })) ∧
  (∀ (s u : State) (id : Nat) (r : Req) (x : Atomic) (p : DramAt),
     s.req id = some r → r.body = .atomic x → x.phys = some p → s.mayRun r = true → s.atomicOpen r p = true →
     s.service.update = none →
     (p.tier = 0 ∨ s.linkState (s.contextOf r.core) (if p.tier = 1 then 16 else p.port) = 2#2) →
     (∀ c, s.openDram p = (.error c, u) → exec (.houseAtomic id) s =
       .next (u.replace { r with body := .atomicReply x.dst 0#128 0#5 (some (BitVec.ofNat 64 x.addr, c)) })) ∧
     (s.openDram p = (.ok (), u) → x.op ≠ .vbmin → (x.bytes = 4 ∨ x.bytes = 8) → (x.trigger = 0#6 ∨ x.op = .add ∨ x.op = .radd) →
     let bs := u.dramBytes p.key x.bytes
     let w := 8 * x.bytes
     let new := written x.op w (little bs) (x.value.toNat % 2 ^ w) (x.expect.toNat % 2 ^ w)
     let t := if x.op = .cas ∧ little bs ≠ x.expect.toNat % 2 ^ w then u else u.dramStore r.task p (bytesOfNat x.bytes new.1)
     exec (.houseAtomic id) s = .next ((triggers t r.core x.trigger x.addr new.1).replace
       { r with body := .atomicReply x.dst (BitVec.ofNat 128 (little bs)) new.2 none }))) ∧
  (∀ (s : State) (core id : Nat) (rest : List InboxItem) (r : Req) (x : Atomic),
     (s.core core).queues.inbox = .atomic id :: rest → (s.core core).activation = none → s.req id = some r → r.body = .atomic x →
     x.op = .vbmin → x.trigger = 0#6 → x.bytes = 16 →
     let old : Quad := BitVec.ofNat 128 (little ((List.range 16).map fun k => s.readByte (x.addr + k)))
     (winsSample x.value old → ∃ t, exec (.ulmAtomic core) s = .next t ∧
       little ((List.range 16).map fun k => t.readByte (x.addr + k)) = (storedSample x.value).toNat ∧
       (∀ y, y < x.addr ∨ x.addr + 16 ≤ y → t.readByte y = s.readByte y) ∧
       t.req id = some { r with body := .atomicReply x.dst 1#128 0#5 none }) ∧
     (¬ winsSample x.value old → ∃ t, exec (.ulmAtomic core) s = .next t ∧ t.mem = s.mem ∧
       t.req id = some { r with body := .atomicReply x.dst 0#128 0#5 none }))

/-! ## Messages, handlers, spawn -/

/-- R200, R202: `send` puts a message of class k with the four words of s1 on its way to the core d names, behind the core's
earlier messages to the same core; no register and no byte of memory changes.

R201: `send.l` sends n + 1 words read at issue from the core's own ULM; its reply form appends the register window of d, a
register of a thread, and marks d empty. -/
def Obligations.MessagesSent : Prop :=
  (∀ (s : State) (d : XName) (a : Src) (k : BitVec 8), k ≠ 0#8 → s.readable d → s.readable a.reg →
     let pair := (s.img.word d).toNat
     pair < 16384 → isCore pair = true → s.grade.noStage.contains (stageOf pair) = false → s.samePart s.cur.1 pair = true →
     (s.outbound s.cur.1).length < 8 →
     ∃ t r, exec (.send d a k) s = .next t ∧ t.reqs = s.reqs ++ [r] ∧ r.core = s.cur.1 ∧ r.ctx = s.cur.2 ∧ r.cls = some .m ∧
       r.place = .core pair ∧
       r.body = .message pair ⟨k, BitVec.ofNat 14 s.cur.1,
         (List.range 4).map fun j => (s.img.sourceVal a.reg).val.extractLsb' (32 * j) 32, false⟩ none ∧
       (∀ q ∈ s.outbound s.cur.1, ∀ m f, q.body = .message pair m f → q.id ∈ r.after) ∧
       t.img.x = s.img.x ∧ t.mem = s.mem ∧ t.tags = s.tags ∧
       (t.core s.cur.1).regs.netCount = (s.core s.cur.1).regs.netCount + 1) ∧
  (∀ (s : State) (d : XName) (a b : Src) (k n : BitVec 8) (reply : Bool) (o : Nat), k ≠ 0#8 →
     (if reply = true then s.img.writable d ∧ d ≠ 0#5 ∧ n ≠ 63#8 ∧ s.cur.2 < 16 else d = 0#5) →
     s.readable a.reg → s.readable b.reg →
     let pair := (s.img.word b.reg).toNat
     let bytes := 4 * (n.toNat + 1)
     let cap := s.img.sourceVal a.reg
     pair < 16384 → isCore pair = true → s.grade.noStage.contains (stageOf pair) = false → s.samePart s.cur.1 pair = true →
     Quad.kind cap.val = 0#2 → Quad.hasG cap.val = false → accessCheck cap needL 0 bytes 4 s = .ok (.local o, s) → clear s .r o bytes →
     (s.outbound s.cur.1).length < 8 →
     let words := (List.range (n.toNat + 1)).map fun j =>
       BitVec.ofNat 32 (little ((List.range 4).map fun k => s.readByte (ulmAddr s.cur.1 o + (4 * j + k))))
     ∃ t r, exec (.sendL d b k a n reply) s = .next t ∧ t.reqs = s.reqs ++ [r] ∧ r.place = .core pair ∧
       r.body = .message pair ⟨k, BitVec.ofNat 14 s.cur.1,
         if reply then words ++ [BitVec.ofNat 32 (0x80000 + 0x1000 * s.cur.2 + 16 * d.toNat)] else words, false⟩ none ∧
       t.img.x = (if reply then (s.img.emptied d).x else s.img.x) ∧ t.mem = s.mem)

/-- R203, 23 R321: `bind` of an unbound class, and `rebind`, bind it to the instruction imm words away, in the issuer's mode,
with no region for x0; `bind` of a bound class traps "class bound"; `unbind` unbinds; a class outside 1 to 255 traps.

R203: the region of a binding runs from the cursor of a local capability with L and S to its end, with L and S alone. -/
def Obligations.HandlerBindings : Prop :=
  (∀ (s : State) (a : Src) (i : BitVec 11), s.readable a.reg →
     let v := (s.img.word a.reg).toNat
     let core := s.core s.cur.1
     let bound : Binding := ⟨BitVec.ofInt 18 ((s.img.pc.toNat : Int) + 4 * i.toInt), none, s.img.mode⟩
     let with' (m : Assoc Binding) : State := (s.pop a.reg).setCore s.cur.1 { core with bindings := m }
     (0 < v → v < 256 →
       exec (.rebind 0#5 a i) s = .next (s.completes (with' (core.bindings.set v bound))) ∧
       exec (.bind 0#5 a i) s = .next (
         if core.bindings.find v = none then s.completes (with' (core.bindings.set v bound))
         else s.traps Cause.classBound (BitVec.ofNat 64 v)) ∧
       exec (.unbind a) s = .next (s.completes (with' (core.bindings.del v)))) ∧
     (v = 0 ∨ 256 ≤ v → ∀ j : Instr, j = .rebind 0#5 a i ∨ j = .bind 0#5 a i ∨ j = .unbind a →
       exec j s = .next (s.traps Cause.messageOperand 0#64))) ∧
  (∀ (s : State) (d : XName) (a : Src) (i : BitVec 11), d ≠ 0#5 → s.readable a.reg → s.readable d →
     let v := (s.img.word a.reg).toNat
     let r := s.img.sourceVal d
     0 < v → v < 256 → r.tag = true → Quad.kind r.val = 0#2 → Quad.hasG r.val = false →
     Quad.hasL r.val = true → Quad.hasS r.val = true → (Quad.offset r.val).toNat ≤ (Quad.length r.val).toNat →
     ∃ t b q, exec (.rebind d a i) s = .next t ∧ (t.core s.cur.1).bindings.find v = some b ∧ b.region = some q ∧
       Quad.kind q = 0#2 ∧ Quad.perms q = 0b110000#6 ∧ Quad.base q = Quad.cursor r.val ∧
       (Quad.length q).toNat = (Quad.length r.val).toNat - (Quad.offset r.val).toNat ∧ Quad.offset q = 0#32)

/-- R204, 03 R34: `spawn` sends x4 to x7, a tag kept on its own core or for a capability with G, and holds until the target
answers; it traps in a handler.

03 R34, R27: a free slot of the target (the lowest, log 73) takes the child, which starts at its pc in its parent's mode with
its arguments in x4 to x7; the caller's register gets the slot's number and the caller goes on. With no slot free the caller runs
the child itself, its loop stack kept: the return address is where the loop test after the `spawn` leads (R42; log 30). -/
def Obligations.Spawning : Prop :=
  ((∀ (s : State) (d : XName) (a b : Src), s.cur.2 ≠ 16 → s.img.writable d → s.readable a.reg → s.readable b.reg →
     (∀ j : BitVec 5, 4 ≤ j.toNat → j.toNat ≤ 7 → s.readable j) →
     let pair := (s.img.word a.reg).toNat
     let pc := s.img.word b.reg
     pair < 16384 → isCore pair = true → s.grade.noStage.contains (stageOf pair) = false → s.samePart s.cur.1 pair = true →
     pc.toNat < 262144 → pc.toNat % 2 = 0 →
     let arg (j : BitVec 5) : XReg :=
       ⟨(s.img.x[j.toFin]).val, (s.img.x[j.toFin]).tag && (pair == s.cur.1 || Quad.hasG (s.img.x[j.toFin]).val), true⟩
     let read := ((((s.img.popped2 a.reg b.reg).popped 4#5).popped 5#5).popped 6#5).popped 7#5
     exec (.spawn d a b) s = .next (s.rests
       (((s.setImg (read.emptied d)).sent s.cur.1).push ⟨0, s.cur.1, s.cur.2, s.curThread.slot.epoch, some .m, .core pair,
         s.fenceWaits .m, .spawn pair (pc.setWidth 18) [arg 4#5, arg 5#5, arg 6#5, arg 7#5] s.img.mode s.curThread.slot.kernel
           (if d = 0#5 then .none else .x d 8 false false)⟩) (.answer s.nextId))) ∧
   (∀ (s : State) (d : XName) (a b : Src), s.cur.2 = 16 →
     exec (.spawn d a b) s = .next (s.traps Cause.blockingInHandler s.curWord))) ∧
  ((∀ (s : State) (id core k : Nat) (r : Req) (pc : Ulm) (v4 v5 v6 v7 : XReg) (mode : Mode) (dst : Dest),
     s.req id = some r → s.mayRun r = true → r.body = .spawn core pc [v4, v5, v6, v7] mode none dst →
     (List.range 16).find? (fun k => (s.thread core k).slot.status == .free && !(s.thread core k).slot.held) = some k →
     ∃ t, exec (.spawnRequest id) s = .next t ∧
       t.req id = some { r with body := .spawnAnswer (some k) core pc [v4, v5, v6, v7] mode none dst } ∧
       (t.thread core k).slot.status = .ready ∧ (t.thread core k).img.pc = pc ∧ (t.thread core k).img.mode = mode ∧
       (t.thread core k).img.x[4] = v4 ∧ (t.thread core k).img.x[5] = v5 ∧ (t.thread core k).img.x[6] = v6 ∧
       (t.thread core k).img.x[7] = v7) ∧
   (∀ (s : State) (id core k : Nat) (r : Req) (pc : Ulm) (args : List XReg) (mode : Mode) (kernel : Option Nat) (dst : Dest),
     s.req id = some r → r.body = .spawnAnswer (some k) core pc args mode kernel dst → s.present r = true →
     (s.thread r.core r.ctx).slot.wait = .answer id → s.mayDeliver dst = true →
     exec (.spawnAnswer id) s = .next (((s.receive core r.core [BitVec.ofNat 32 k]).deliver r dst (bytesOfNat 8 k) false).retireHeld
       r.core r.ctx)) ∧
   (∀ (s : State) (id core : Nat) (r : Req) (pc : Ulm) (args : List XReg) (mode : Mode) (kernel : Option Nat),
     s.req id = some r → r.body = .spawnAnswer none core pc args mode kernel .none → s.present r = true →
     let t := s.thread r.core r.ctx
     t.slot.wait = .answer id → t.slot.inCore r.ctx = true → t.slot.saved = false → t.img.inlineValid = false →
     (t.img.x[1]).full = true →
     let after := seqLoop t.img.pc (s.nextPc r.core t.img.pc) t.img.loops
     ∃ u, exec (.spawnAnswer id) s = .next u ∧ (u.thread r.core r.ctx).img.pc = pc ∧
       (u.thread r.core r.ctx).img.inlineValid = true ∧ (u.thread r.core r.ctx).img.inlinePc = after.2 ∧
       (u.thread r.core r.ctx).img.loops = after.1 ∧
       (u.thread r.core r.ctx).img.x[1] = ⟨after.2.setWidth 128, false, true⟩ ∧
       (t.img.loops.depth = 0#2 → after = (t.img.loops, s.nextPc r.core t.img.pc))))

/-- 03 R36: a message enters the inbox of its core while that has room and its class is bound or the unbound queue has room; else
it is refused and tried again, and after 2^20 cycles it is dropped and posted as "unbound timeout".

03 R26, R27, R36: while no activation runs, the inbox's head starts one if its class is bound: at the binding's pc and mode,
with the payload in the payload buffer and in x4 to x7, sender, class and length in x8, and the region in x3.

27 R393: a receiver that drops its least recently used mirror has the sender start that dictionary anew. -/
def Obligations.HandlersStart : Prop :=
  (∀ (s : State) (id core : Nat) (r : Req) (m : Msg) (f : Option Nat), s.req id = some r → r.body = .message core m f →
     let c := s.core core
     (s.mayRun r = true → c.queues.inbox.length < 32 →
       ((c.bindings.find m.cls.toNat).isSome = true ∨ c.queues.unbound.length < 8) →
       ∀ i : Instr, i = .messageArrival id ∨ (i = .messageRetry id ∧ f.isSome = true) →
         ∃ t, exec i s = .next t ∧ (t.core core).queues.inbox = c.queues.inbox ++ [.msg m] ∧ t.req id = none) ∧
     (s.mayRun r = true → c.queues.inbox.length < 32 → c.bindings.find m.cls.toNat = none → 8 ≤ c.queues.unbound.length →
       exec (.messageArrival id) s = .next (s.replace { r with body := .message core m (some (f.getD s.cycle)) })) ∧
     (∀ since p, f = some since → since + 2 ^ 20 ≤ s.cycle → s.partOf core = some p →
       ∃ t q, exec (.unboundTimeout id) s = .next t ∧ (∀ x ∈ t.reqs, x.body ≠ r.body ∨ x.id ≠ id) ∧ q ∈ t.reqs ∧
         q.body = .post p ⟨Cause.unboundTimeout, BitVec.ofNat 14 core, 0#2, 0#11, s.time, m.cls.setWidth 64, m.sender.setWidth 64⟩)) ∧
  (∀ (s : State) (core : Nat) (m : Msg) (rest : List InboxItem) (b : Binding),
     let c := s.core core
     c.activation = none → c.regs.preStat = 0#2 → c.queues.unbound = [] → c.queues.inbox = .msg m :: rest →
     c.bindings.find m.cls.toNat = some b →
     ∃ t, exec (.messageDequeue core) s = .next t ∧ (t.core core).queues.inbox = rest ∧ (t.core core).activation.isSome = true ∧
       let h := (t.thread core 16).img
       (t.thread core 16).slot.status = .ready ∧ h.pc = b.pc ∧ h.mode = b.mode ∧
       h.x[3] = (match b.region with | some q => ⟨q, true, true⟩ | none => XReg.zero) ∧
       (∀ j : Fin 4, h.x[4 + j.val] = ⟨(m.words.getD j.val 0#32).setWidth 128, false, true⟩) ∧
       h.x[8] = ⟨BitVec.ofNat 128 (m.sender.toNat + 2 ^ 14 * m.cls.toNat + 2 ^ 22 * (4 * m.words.length)), false, true⟩ ∧
       (∀ j, j < m.words.length → little ((List.range 4).map fun k => t.readByte (ulmAddr core 0x3F700 + (4 * j + k))) =
         (m.words.getD j 0#32).toNat)) ∧
  (∀ (s : State) (core : Nat) (d : Dict), (s.core core).dicts.2.getLast? = some d → d.partner ≠ core →
     ∃ t, exec (.compressionResetNotice core) s = .next t ∧ (t.core core).dicts.2 = (s.core core).dicts.2.dropLast ∧
       (t.core d.partner).dicts.1 = (s.core d.partner).dicts.1.filter (fun e => e.partner != core) ∧ t.mem = s.mem)

/-! ## Floating point and vectors -/

/-- R211, R212, R217, 05 R66, R68: the result stands in the low bits of d, the others zero and the tag clear, and its flags are
ORed into `fp.flags`; an enabled exception traps with the flags set and d as it was; an rm that names no mode is illegal.

R214, R216: the number where the other operand is a NaN, the canonical NaN where both are, and NV for a signalling one; and
`fclass` sets exactly one of its ten bits.

05 R61, R62, R66: rounding a finite value that a format holds gives its own encoding back, raises nothing, and does so in every
mode. -/
def Obligations.FloatingPoint : Prop :=
  (∀ (s : State) (i : Instr) (f : FpForm), fpForm s.img i = some f →
     (modeOf s.img f.rm = none → exec i s = .next (s.traps Cause.illegal s.curWord)) ∧
     (∀ m, modeOf s.img f.rm = some m → s.img.writable f.d → (addend i = true → s.ordered f.d.toNat) → f.ready s →
       let r := f.result m
       let enabled := s.img.fpCtrl.extractLsb' 8 5 &&& r.2
       exec i s = .next (
         if enabled = 0#5 then
           s.completes (s.setImg (Context.put { f.read s.img with fpFlags := s.img.fpFlags ||| r.2 } f.d (BitVec.ofNat 128 r.1) false))
         else
           (s.setImg { s.img with fpFlags := s.img.fpFlags ||| r.2 }).raise s.cur.1 s.cur.2 (firstCause enabled) (r.2.setWidth 64)
             false))) ∧
  (∀ (f : Fmt) (a b : Nat) (isMax : Bool), f = .bf16 ∨ f = .fp16 ∨ f = .fp32 ∨ f = .fp64 → a < 2 ^ f.width → b < 2 ^ f.width →
     ((f.unpack a).isNaN = true → (f.unpack b).isNaN = false →
       (f.minMax isMax a b).1 = b ∧ (f.minMax isMax b a).1 = b) ∧
     ((f.unpack a).isNaN = true → (f.unpack b).isNaN = true → (f.minMax isMax a b).1 = f.nan) ∧
     ((f.minMax isMax a b).2 = if (f.unpack a).isSNaN || (f.unpack b).isSNaN then 0b10000#5 else 0#5) ∧
     ∃ k, k < 10 ∧ f.classOf a = 2 ^ k ∧
       ((k = 8 ∨ k = 9) ↔ (f.unpack a).isNaN = true) ∧ ((k = 3 ∨ k = 4) ↔ a % 2 ^ (f.width - 1) = 0)) ∧
  (∀ (f : Fmt) (sat : Bool) (mode : Rnd) (bits : Nat) (neg : Bool) (m : Nat) (e : Int), bits < 2 ^ f.width →
     f.unpack bits = .num neg m e → f.round sat mode (.num neg m e) = (bits, 0#5))

/-- R219, R220: each active element of d is the row's function of the elements, wrapped to its width; every other element, every
other register and the flags keep their values. -/
def Obligations.VectorIntegers : Prop :=
  ∀ (s : State) (i : Instr) (f : LaneForm), laneForm i = some f → filled s [f.d, f.a, f.b] →
    ∃ u, exec i s = .next (s.completes (s.setImg (putVec (seen s.img [f.a, f.b]) f.d u))) ∧
      ∀ j, j < 512 / f.n → elem f.n u j =
        if activeIn (s.img.mask f.m) f.n j then
          (f.f (elem f.n (vec s.img f.a) j) (elem f.n (vec s.img f.b) j) (elem f.n (vec s.img f.d) j) % 2 ^ f.n).toNat
        else elem f.n (vec s.img f.d) j

/-- R219, R221, 05 R68: the same with the rounding mode; the flags of the active elements are ORed together, and where an
enabled one is among them the instruction traps and writes no element.

R222: a conversion takes as many elements as the wider of its two types gives, writes zero above them, and refuses a source
that its row does not allow. -/
def Obligations.VectorFloats : Prop :=
  (∀ (s : State) (i : Instr) (f : FpLaneForm) (q : Rnd), fpLaneForm i = some f → filled s [f.d, f.a, f.b] →
     modeOf s.img f.rm = some q →
     let w := f.k.width
     let act := activeIn (s.img.mask f.m) w
     let res (j : Nat) := f.f q (elem w (vec s.img f.a) j) (elem w (vec s.img f.b) j) (elem w (vec s.img f.d) j)
     let flags := flagsOf act (fun j => (res j).2) (512 / w)
     let c : Context := { s.img with fpFlags := s.img.fpFlags ||| flags }
     let enabled := s.img.fpCtrl.extractLsb' 8 5 &&& flags
     (enabled = 0#5 → ∃ u, exec i s = .next (s.completes (s.setImg (putVec (seen c [f.a, f.b]) f.d u))) ∧
       ∀ j, j < 512 / w → elem w u j = if act j then (res j).1 % 2 ^ w else elem w (vec s.img f.d) j) ∧
     (enabled ≠ 0#5 → exec i s = .next ((s.setImg c).raise s.cur.1 s.cur.2 (firstCause enabled) (flags.setWidth 64) false))) ∧
  (∀ (s : State) (i : Instr) (f : CvtForm), cvtForm i = some f →
     (sourceOf f.c = none ∨ (f.fpOnly = true ∧ 6 ≤ f.c.toNat) → exec i s = .next (s.traps Cause.illegal s.curWord)) ∧
     (∀ (q : Rnd) (ws : Nat) (val : Nat → FVal), sourceOf f.c = some (ws, val) → (f.fpOnly = true → f.c.toNat < 6) →
       filled s [f.d, f.a] → modeOf s.img f.r = some q →
       let count := 512 / max ws f.n
       let act := activeIn (s.img.mask f.m) f.n
       let res (j : Nat) := f.f q (val (elem ws (vec s.img f.a) j))
       let flags := flagsOf act (fun j => (res j).2) count
       let c : Context := { s.img with fpFlags := s.img.fpFlags ||| flags }
       s.img.fpCtrl.extractLsb' 8 5 &&& flags = 0#5 →
       ∃ u, exec i s = .next (s.completes (s.setImg (putVec (seen c [f.a]) f.d u))) ∧
         ∀ j, j < 512 / f.n → elem f.n u j =
           if count ≤ j then 0 else if act j then (res j).1 % 2 ^ f.n else elem f.n (vec s.img f.d) j))

/-- R227, R228: permutes, reductions, scans, selections and group maxima, element by element. -/
def Obligations.VectorCrossLanes : Prop :=
  ∀ (s : State) (i : Instr) (f : CrossForm), crossForm i = some f → filled s [f.d, f.a, f.b] → groupFits i →
    let n := 512 / f.n
    let act := activeIn (s.img.mask f.m) f.n
    ∃ u, exec i s = .next (s.completes (s.setImg (putVec (seen s.img [f.a, f.b]) f.d u))) ∧
      ∀ j, j < n → elem f.n u j =
        if act j || writesAll i then f.f (elem f.n (vec s.img f.a)) (elem f.n (vec s.img f.b)) act n j % 2 ^ f.n
        else elem f.n (vec s.img f.d) j

/-- R227, R229: the mask instructions and `vcmp`; a write to m0 is discarded; the bits of inactive elements stay.

R227 (format VX): slides, and the moves between vector, mask and x registers. -/
def Obligations.VectorMoves : Prop :=
  (∀ (s : State) (d a b : BitVec 3),
     exec (.mand d a b) s = .next (s.completes (s.setImg (putMask s.img d (s.img.mask a &&& s.img.mask b)))) ∧
     exec (.mor d a b) s = .next (s.completes (s.setImg (putMask s.img d (s.img.mask a ||| s.img.mask b)))) ∧
     exec (.mxor d a b) s = .next (s.completes (s.setImg (putMask s.img d (s.img.mask a ^^^ s.img.mask b)))) ∧
     exec (.mnot d a) s = .next (s.completes (s.setImg (putMask s.img d (~~~s.img.mask a)))) ∧
     (∀ (c : BitVec 3) (x y : VName) (w : Bool) (m : MName) (e : BitVec 2), filled s [x, y] → c.toNat < 6 →
       let n := bitsOfSize e
       let holds (p q : Nat) : Bool := [p == q, p != q, decide (sx n p < sx n q), decide (sx n q ≤ sx n p), decide (p < q),
         decide (q ≤ p)].getD c.toNat false
       ∃ u, exec (.vcmp d c x y w m e) s = .next (s.completes (s.setImg (putMask (seen s.img [x, y]) d u))) ∧
         ∀ j, j < 64 → u.getLsbD j =
           let k := j / (n / 8)
           if activeIn (s.img.mask m) n k then holds (elem n (vec s.img x) k) (elem n (vec s.img y) k)
           else (s.img.mask d).getLsbD j) ∧
     (∀ (c : BitVec 3) (x y : VName) (w : Bool) (m : MName) (e : BitVec 2), filled s [x, y] → 6 ≤ c.toNat → 2 ≤ e.toNat →
       let f := formatOf e
       let n := f.width
       let p (j : Nat) := f.unpack (elem n (vec s.img x) j)
       let q (j : Nat) := f.unpack (elem n (vec s.img y) j)
       let act := activeIn (s.img.mask m) n
       let flags := flagsOf act (fun j => if (p j).isSNaN || (q j).isSNaN then 0b10000#5 else 0#5) (512 / n)
       s.img.fpCtrl.extractLsb' 8 5 &&& flags = 0#5 →
       ∃ u, exec (.vcmp d c x y w m e) s =
           .next (s.completes (s.setImg (putMask (seen { s.img with fpFlags := s.img.fpFlags ||| flags } [x, y]) d u))) ∧
         ∀ j, j < 64 → u.getLsbD j =
           let k := j / (n / 8)
           if act k then !(p k).isNaN && !(q k).isNaN && (p k).cmp (q k) == (if c = 6#3 then .lt else .eq)
           else (s.img.mask d).getLsbD j) ∧
     (∀ (c : BitVec 3) (x y : VName) (w : Bool) (m : MName) (e : BitVec 2), 6 ≤ c.toNat → e.toNat < 2 →
       exec (.vcmp d c x y w m e) s = .next (s.traps Cause.illegal s.curWord))) ∧
  (∀ (s : State) (e : BitVec 2),
     let n := bitsOfSize e
     (∀ (d v : VName) (a : Src) (w : Bool) (m : MName), s.readable a.reg → filled s [d, v] →
       ∃ u, exec (.vslide d a v w e m) s = .next (s.completes (s.setImg (putVec (seen (s.img.popped a.reg) [v]) d u))) ∧
         ∀ j, j < 512 / n → elem n u j =
           let k := (j : Int) + (s.img.word a.reg).toInt
           if activeIn (s.img.mask m) n j then
             (if 0 ≤ k ∧ k < (512 / n : Nat) then elem n (vec s.img v) k.toNat else 0)
           else elem n (vec s.img d) j) ∧
     (∀ (d : XName) (l : BitVec 4) (v : VName) (w : Bool), l.toNat < 512 / n → s.img.writable d → filled s [v] →
       exec (.vmovx d l v w e) s = .next (s.completes (s.setImg ((seen s.img [v]).putWord d (BitVec.ofNat 64 (elem n (vec s.img v) l.toNat)))))) ∧
     (∀ (d : VName) (l : BitVec 4) (a : Src), l.toNat < 512 / n → s.readable a.reg → filled s [d] →
       ∃ u, exec (.vins d l a e) s = .next (s.completes (s.setImg (putVec (s.img.popped a.reg) d u))) ∧
         ∀ j, j < 512 / n → elem n u j =
           if j = l.toNat then (s.img.word a.reg).toNat % 2 ^ n else elem n (vec s.img d) j) ∧
     (∀ (d : XName) (k : VName), s.img.writable d → k.toNat < 8 →
       let v := s.img.mask (k.setWidth 3)
       exec (.mpop d k) s = .next (s.completes (s.setImg (s.img.putWord d
         (BitVec.ofNat 64 ((List.range 64).countP fun j => v.getLsbD j))))) ∧
       exec (.mfirst d k) s = .next (s.completes (s.setImg (s.img.putWord d
         (BitVec.ofNat 64 ((List.range 64).takeWhile fun j => !v.getLsbD j).length))))) ∧
     (∀ (d : VName) (a : Src), d.toNat < 8 → s.readable a.reg →
       exec (.mgen d a) s = .next (s.completes (s.setImg (putMask (s.img.popped a.reg) (d.setWidth 3) (s.img.word a.reg))))))

/-- R224 to R226: the vector accesses to the core's own ULM. `vld`, `vldu` and `vbcast` bring the selected bytes, `vst`, `vstu` and
`vscat` store them, and the others stay; the cursor is stepped by the form's mode. `vgath` marks vd empty, and the bytes of the active
elements, each at its index times e from the cursor, are on their way to them.

R226, 04 R51, R53: a vector's value arrives once every piece of it has returned: each piece (a place in the bytes, a place in the
register, a length) replaces its bytes of vd, the others stay, and vd is full; for a task that has gone no register changes. -/
def Obligations.VectorLocalAccesses : Prop :=
  (∀ (s : State) (d : VName) (a : Src) (w : Bool) (e m : BitVec 2) (k : MName), s.readable a.reg → filled s [d] →
     let r := s.img.sourceVal a.reg
     let K := s.img.mask k
     let n := 2 ^ e.toNat
     let after (c : Context) (len : Nat) : Context :=
       if m.toNat = 0 then c else stepped c a.reg r (if m.toNat = 1 then 64 else len)
     let bitsSet := (List.range 64).countP fun j => K.getLsbD j
     -- whole vectors
     (∀ o, m.toNat < 2 → localOffset s.img.mode r true false 0 64 = some o → clear s .r o 64 →
       ∃ u, exec (.vld d a e m k) s = .next (s.completes (s.setImg (after (putVec (s.img.popped a.reg) d u) bitsSet))) ∧
         ∀ j, j < 64 → elem 8 u j =
           if activeIn K (8 * n) (j / n) then (s.readByte (ulmAddr s.cur.1 o + j)).toNat else elem 8 (vec s.img d) j) ∧
     (∀ o, m.toNat < 2 → localOffset s.img.mode r false false 0 64 = some o → clear s .w o 64 →
       ∃ t, exec (.vst a d w e m k) s = .next t ∧ t.img.v = s.img.v ∧ t.img.x = (after s.img bitsSet).x ∧
         ∀ x, t.readByte x =
           let j := x - ulmAddr s.cur.1 o
           if ulmAddr s.cur.1 o ≤ x ∧ j < 64 ∧ activeIn K (8 * n) (j / n) = true then
             BitVec.ofNat 8 (elem 8 (vec s.img d) j) else s.readByte x) ∧
     -- the bytes a mask selects, up to its highest set bit
     (∀ o len, m.toNat < 3 → K ≠ 0#64 → len = Nat.log2 K.toNat + 1 → r.tag = true → Quad.kind r.val = 0#2 →
       accessCheck r needL 0 len 1 s = .ok (.local o, s) → clear s .r o len →
       ∃ u, exec (.vldu d a m k) s = .next (s.completes (s.setImg (after (putVec (s.img.popped a.reg) d u) bitsSet))) ∧
         ∀ j, j < 64 → elem 8 u j =
           if K.getLsbD j then (s.readByte (ulmAddr s.cur.1 o + j)).toNat else elem 8 (vec s.img d) j) ∧
     (∀ o len, m.toNat < 3 → K ≠ 0#64 → len = Nat.log2 K.toNat + 1 → r.tag = true → Quad.kind r.val = 0#2 →
       accessCheck r needS 0 len 1 s = .ok (.local o, s) → clear s .w o len →
       ∃ t, exec (.vstu a d w m k) s = .next t ∧ t.img.v = s.img.v ∧ t.img.x = (after s.img bitsSet).x ∧
         ∀ x, t.readByte x =
           let j := x - ulmAddr s.cur.1 o
           if ulmAddr s.cur.1 o ≤ x ∧ j < 64 ∧ K.getLsbD j = true then BitVec.ofNat 8 (elem 8 (vec s.img d) j)
           else s.readByte x) ∧
     (m.toNat < 3 → K = 0#64 → r.tag = true → (Quad.kind r.val = 0#2 ∨ Quad.kind r.val = 1#2) →
       (Quad.hasL r.val = true →
         exec (.vldu d a m k) s = .next (s.completes (s.setImg (after (s.img.popped a.reg) 0)))) ∧
       (Quad.hasS r.val = true →
         exec (.vstu a d w m k) s = .next (s.completes (s.setImg (after (seen (s.img.popped a.reg) [d]) 0))))) ∧
     -- one element to every lane
     (∀ (i : BitVec 4) o, localOffset s.img.mode r true false ((i.toNat * n : Nat) : Int) n = some o → clear s .r o n →
       ∃ u, exec (.vbcast d a e i) s = .next (s.completes (s.setImg (putVec (s.img.popped a.reg) d u))) ∧
         ∀ j, j < 64 / n → elem (8 * n) u j = little ((List.range n).map fun b => s.readByte (ulmAddr s.cur.1 o + b))) ∧
     -- no element: the operand must be linear all the same (R418)
     (∀ (idx : VName), filled s [idx] → r.tag = true → (∀ j, j < 64 / n → activeIn K (8 * n) j = false) →
       exec (.vgath d a idx w e k) s = .next (
         if Quad.kind r.val = 0#2 then s.completes (s.setImg (seen (s.img.popped a.reg) [idx]))
         else s.traps Cause.capKind 0#64)) ∧
     -- indexed elements: a gather marks d empty, and the elements are on their way; a scatter stores them
     (∀ (idx : VName) (place : Nat → Nat), filled s [idx] → r.tag = true → Quad.kind r.val = 0#2 →
       (∀ j, j < 64 / n → activeIn K (8 * n) j = true →
         localOffset s.img.mode r true false ((elem (8 * n) (vec s.img idx) j * n : Nat) : Int) n = some (place j) ∧
         clear s .r (place j) n) →
       (∃ j, j < 64 / n ∧ activeIn K (8 * n) j = true) →
       let js := (List.range (64 / n)).filter fun j => activeIn K (8 * n) j
       exec (.vgath d a idx w e k) s = .next (s.completes ((s.setImg (emptyVec (seen (s.img.popped a.reg) [idx]) d)).push
         ⟨0, s.cur.1, s.cur.2, s.curThread.slot.epoch, none, .core s.cur.1, [],
           .reply (.v d s.nextId (js.zipIdx.map fun p => (p.2 * n, p.1 * n, n)))
             (js.flatMap fun j => (List.range n).map fun b => s.readByte (ulmAddr s.cur.1 (place j) + b)) false⟩))) ∧
     (∀ (idx : VName), filled s [idx] → r.tag = true → Quad.kind r.val = 0#2 →
       (∀ j, j < 64 / n → activeIn K (8 * n) j = true →
         ∃ o, localOffset s.img.mode r false false ((elem (8 * n) (vec s.img idx) j * n : Nat) : Int) n = some o ∧ clear s .w o n) →
       ∃ t, exec (.vscat d a idx w e k) s = .next t ∧ t.img.x = s.img.x ∧ t.img.v = s.img.v ∧
         (∀ j o, j < 64 / n → activeIn K (8 * n) j = true →
           localOffset s.img.mode r false false ((elem (8 * n) (vec s.img idx) j * n : Nat) : Int) n = some o →
           (∀ l, j < l → l < 64 / n → activeIn K (8 * n) l = true →
             elem (8 * n) (vec s.img idx) l ≠ elem (8 * n) (vec s.img idx) j) →
           little ((List.range n).map fun b => t.readByte (ulmAddr s.cur.1 o + b)) = elem (8 * n) (vec s.img d) j) ∧
         ∀ x, (∀ j o, j < 64 / n → activeIn K (8 * n) j = true →
           localOffset s.img.mode r false false ((elem (8 * n) (vec s.img idx) j * n : Nat) : Int) n = some o →
           x < ulmAddr s.cur.1 o ∨ ulmAddr s.cur.1 o + n ≤ x) → t.readByte x = s.readByte x)) ∧
  (∀ (s : State) (id g : Nat) (r : Req) (d : VName), s.req id = some r → r.isReply = true → r.body.vecGroup = some g →
     s.service.curtain = none →
     let group := s.reqs.filter fun q => q.body.vecGroup == some g
     ((∃ q ∈ group, q.isReply = false) → exec (.loadReply id) s = .next s) ∧
     ((∀ q ∈ group, (∃ ps bs, q.body = .reply (.v d g ps) bs false) ∧ q.core = r.core ∧ q.ctx = r.ctx ∧ q.epoch = r.epoch) →
       (s.thread r.core r.ctx).slot.inCore r.ctx = true →
       let old := (s.thread r.core r.ctx).img.v[d.toFin]
       ∃ t, exec (.loadReply id) s = .next t ∧ t.mem = s.mem ∧ (∀ q ∈ t.reqs, q.body.vecGroup ≠ some g) ∧
         (s.present r = false → t.threads = s.threads) ∧
         (s.present r = true →
           let new := (t.thread r.core r.ctx).img.v[d.toFin]
           new.full = true ∧ ∀ i, i < 64 → BitVec.ofNat 8 (elem 8 new.val i) =
             (group.flatMap vectorPieces).foldl (fun b p => if p.1.2.1 ≤ i ∧ i < p.1.2.1 + p.1.2.2 then
               p.2.getD (p.1.1 + (i - p.1.2.1)) 0#8 else b) (BitVec.ofNat 8 (elem 8 old.val i)))))

/-! ## Tiles, engines, copies -/

/-- R232: `tdecl` of an empty core-owned entry, over a local capability with L and S whose extent meets the alignment, size, bank
and overlap rules, its trailer in the bank of its last byte (05 R73), declares it: empty, core-owned, with base, size and format, and trailer and fault clear. R233, R234, R238: `tfree`,
`twait` and `tstat`.

R235, R236: `tfmt` writes the format of a bank that no tile which is not empty lies in, and traps for bank 7; `ttrl` clears a
trailer, or writes the 16 bytes of a fresh one behind the tile: the largest magnitude, a saturation count of 0, the CRC, and the
format with the number of elements.

R237, R238, R240: `tgive` of a ready core-owned tile appends it to a stream and gives it to the stage's copy engine; `ttake`
takes back a tile that has not begun to play, and else acts as `twait`; `xstrm` appends a DRAM segment. A stream holds at most 16. -/
def Obligations.Tiles : Prop :=
  ((∀ (s : State) (f : BitVec 4) (a : Src) (w : Bool) (u : BitVec 6), s.readable a.reg →
     let r := s.img.sourceVal a.reg
     let base := (Quad.cursor r.val).toNat
     let size := (Quad.length r.val).toNat - (Quad.offset r.val).toNat
     let c := s.core s.cur.1
     let n := tileRoom f.toNat size
     (c.tile u.toNat).owner = false → (c.tile u.toNat).state = 0#2 →
     r.tag = true → Quad.kind r.val = 0#2 → Quad.hasG r.val = false → Quad.hasL r.val = true → Quad.hasS r.val = true →
     0 < size → base % 64 = 0 → wholeElements f.toNat size → base + n ≤ 0x38000 →
     (n = size ∨ (base + size - 1) / 0x8000 = (base + n - 1) / 0x8000) →
     (∀ b, b < 7 → meets (b * 0x8000) 0x8000 base n → c.bank b = f) →
     (∀ p ∈ c.tiles, p.1 ≠ u.toNat → p.2.size ≠ 0#18 →
       ¬ meets p.2.base.toNat (tileRoom p.2.format.toNat p.2.size.toNat) base n) →
     exec (.tdecl f a w u) s = .next (s.completes ((s.pop a.reg).setTile s.cur.1 u.toNat
       ⟨false, false, f, (c.tile u.toNat).engine, false, 0#2, BitVec.ofNat 18 size, BitVec.ofNat 18 base⟩))) ∧
   (∀ (s : State) (w : Bool) (u : BitVec 6),
     let e := (s.core s.cur.1).tile u.toNat
     exec (.tfree w u) s = .next (
       if e.owner = false then
         s.completes (s.setTile s.cur.1 u.toNat { e with state := 0#2, size := 0#18, trailer := false, fault := false })
       else if w = true then s.traps Cause.tileOwner (u.setWidth 64) else s.stalls) ∧
     exec (.twait w u) s = .next (
       if e.state = 2#2 ∧ e.owner = false then s.completes s
       else if w = true then s.traps (if e.state = 2#2 then Cause.tileOwner else Cause.tileNotReady) (u.setWidth 64)
       else s.stalls)) ∧
   (∀ (s : State) (d : XName) (u : BitVec 6), s.img.writable d →
     exec (.tstat d u) s = .next (s.completes (s.setImg (s.img.putWord d
       (BitVec.ofNat 64 (tileWord ((s.core s.cur.1).tile u.toNat)))))))) ∧
  ((∀ (s : State) (a : Src) (b : Nat) (f : BitVec 4), s.readable a.reg → (s.img.word a.reg).toNat = b + 16 * f.toNat →
     let c := s.core s.cur.1
     (b < 7 → (f = c.bank b ∨ ∀ p ∈ c.tiles, p.2.state ≠ 0#2 →
         ¬ meets p.2.base.toNat (tileRoom p.2.format.toNat p.2.size.toNat) (b * 0x8000) 0x8000) →
       exec (.tfmt a) s = .next (s.completes ((s.pop a.reg).setCore s.cur.1
         { c with bankFmt := Assoc.put 0#4 c.bankFmt b f }))) ∧
     (b = 7 → exec (.tfmt a) s = .next (s.traps Cause.tileFormat 7#64))) ∧
   (∀ (s : State) (w : Bool) (u : BitVec 6),
     let e := (s.core s.cur.1).tile u.toNat
     let f := e.format.toNat
     let at' := ulmAddr s.cur.1 e.base.toNat
     let data := s.readBytes at' e.size.toNat
     e.state = 2#2 → e.owner = false →
     exec (.ttrl w u true) s = .next (s.completes (s.setTile s.cur.1 u.toNat { e with trailer := false })) ∧
     (4 ≤ f → f ≤ 14 → exec (.ttrl w u false) s = .next (s.completes ((s.writeBytes (ulmAddr s.cur.1 (e.base.toNat + e.size.toNat))
       (bytesOfNat 4 (maxMag (tileValues f data)) ++ bytesOfNat 4 0 ++ bytesOfNat 4 (crc32c data).toNat ++
         bytesOfNat 4 (f * 2 ^ 28 + (elemCount f e.size.toNat).getD 0 % 2 ^ 28))).setTile s.cur.1 u.toNat
           { e with trailer := true }))) ∧
     (f < 4 ∨ f = 15 → exec (.ttrl w u false) s = .next (s.traps Cause.tileFormat (u.setWidth 64))))) ∧
  ((∀ (s : State) (a : Src) (w : Bool) (u : BitVec 6), s.readable a.reg → s.fenceWaits .m = [] →
     let st := stageOf s.cur.1
     let e := (s.core s.cur.1).tile u.toNat
     let v := (s.img.word a.reg).toNat
     let q := (s.stage st).stream (v % 256)
     let counter := if v / 2 ^ 22 % 2 = 1 then some (v / 2 ^ 16 % 64) else none
     e.state = 2#2 → e.owner = false →
     (v < 2 ^ 23 → s.tileBusy s.cur.1 e = false → q.segs.length < 16 →
       exec (.tgive a w u) s = .next (s.completes (((s.pop a.reg).setStream st (v % 256)
         { q with segs := q.segs ++ [.tile s.cur.1 u.toNat (v / 2 ^ 8 % 256 + 1) counter false] }).setTile s.cur.1 u.toNat
           { e with owner := true, engine := engineName st 4 }))) ∧
     (2 ^ 23 ≤ v → exec (.tgive a w u) s = .next (s.traps Cause.engineOperand 0#64)) ∧
     (v < 2 ^ 23 → 16 ≤ q.segs.length → exec (.tgive a w u) s = .next s.stalls)) ∧
   (∀ (s : State) (w : Bool) (u : BitVec 6), s.fenceWaits .m = [] →
     let st := stageOf s.cur.1
     let e := (s.core s.cur.1).tile u.toNat
     (∀ n, (s.stage st).holding s.cur.1 u.toNat = some n →
       let q := (s.stage st).stream n
       exec (.ttake w u) s = .next (s.completes ((s.setStream st n
         { q with segs := q.segs.filter fun g => !g.unbegun s.cur.1 u.toNat }).setTile s.cur.1 u.toNat { e with owner := false }))) ∧
     ((s.stage st).holding s.cur.1 u.toNat = none → e.state = 2#2 → e.owner = false →
       exec (.ttake w u) s = .next (s.completes s))) ∧
   (∀ (s : State) (a b : Src), s.readable a.reg → s.readable b.reg → s.fenceWaits .m = [] →
     let st := stageOf s.cur.1
     let va := (s.img.word a.reg).toNat
     let v := (s.img.word b.reg).toNat
     let f := v / 2 ^ 8 % 16
     let len := v / 2 ^ 32
     let q := (s.stage st).stream (v % 256)
     let counter := if v / 2 ^ 22 % 2 = 1 then some (v / 2 ^ 16 % 64) else none
     va < 2 ^ 57 → v / 2 ^ 23 % 2 ^ 9 = 0 → v / 2 ^ 12 % 16 = 0 → 1 ≤ f → f ≤ 14 → 16 ≤ len → len ≤ 2 ^ 24 →
     wholeElements f len → q.segs.length < 16 →
     exec (.xstrm a b) s = .next (s.completes ((s.pop2 a.reg b.reg).setStream st (v % 256)
       { q with segs := q.segs ++ [.dram s.cur.1 va len (BitVec.ofNat 4 f) counter [] none] }))))

/-- R243 to R245, R258: `tsub` of a record that meets the rules, from the core's own ULM, is accepted behind the stage's other
tasks: pending, from the issuing core, and marked where a predecessor is known to have faulted (R249). R250: `tqry` reads a task's status, of the newest task with the tag.

R245, steps 1, 2 and 4: `tsub` waits while the scheduler holds 256 tasks, a record whose region leaves the accumulator tile
traps "dimension" at offset 0x0C (which word it names: log 51), and a drain to a core that does not exist, or is not of the partition,
traps "map address", or "partition boundary", at offset 0x18.

R251, R252: `skbc` of the keeper's core writes sixteen lanes at entry 16g of the buffer at the fill pointer; the last group
makes the buffer full and moves the pointer on. Another core traps "not scale keeper".

R253: `xcopy` reads its 64-byte command at issue and, well formed and naming cores, hands it to the stage's copy engine behind
the earlier ones: not started, with every destination waiting; a handler's command names no status register. -/
def Obligations.Submissions : Prop :=
  ((∀ (s : State) (a : Src) (o : Nat), s.readable a.reg →
     localOffset s.img.mode (s.img.sourceVal a.reg) true false 0 64 = some o → clear s .m o 64 →
     let st := stageOf s.cur.1
     let g := s.stage st
     let w := wordsOf (s.readBytes (ulmAddr s.cur.1 o) 64)
     let t : Task := ⟨w, s.cur.1, g.seq, s.cycle, false, 1#3, 0#7, 0, 0, false, false, none⟩
     let here (core : Nat) := s.grade.hasCore core = true ∧ s.samePart s.cur.1 core = true
     g.tasks.length < 256 → recordRules w → (∀ x ∈ g.tasks, x.tag ≠ recBits w 0x00 16 31) →
     (recBits w 0x00 11 11 = 1 ∨ s.grade.hasEngine st (recBits w 0x00 12 15 / 4) = true) →
     (recBits w 0x00 10 10 = 1 → here (recBits w 0x18 0 13)) → (recBits w 0x1C 20 20 = 1 → here (recBits w 0x1C 0 13)) →
     exec (.tsub a) s = .next (s.completes ((s.pop a.reg).setStage st { g with
       tasks := g.tasks ++ [{ t with doomed := g.faultedPredecessor t }]
       seq := g.seq + 1 }))) ∧
   (∀ (s : State) (d : XName) (a : Src), s.img.writable d → s.readable a.reg → (s.img.word a.reg).toNat < 65536 →
     s.fenceWaits .m = [] →
     let g := s.stage (stageOf s.cur.1)
     let named (t : Task) : Bool := t.tag == (s.img.word a.reg).toNat
     exec (.tqry d a) s = .next (s.completes (s.setImg ((s.img.popped a.reg).putWord d (BitVec.ofNat 64
       (match g.tasks.find? named, g.ended.find? named with
         | some t, _ => statusWord t
         | none, some t => statusWord t
         | none, none => 0)))))) ∧
   (∀ (s : State) (d : XName) (a : Src), s.img.writable d → s.readable a.reg → 65536 ≤ (s.img.word a.reg).toNat →
     exec (.tqry d a) s = .next (s.traps Cause.engineOperand 0#64))) ∧
  (∀ (s : State) (a : Src) (o : Nat), s.readable a.reg →
     localOffset s.img.mode (s.img.sourceVal a.reg) true false 0 64 = some o → clear s .m o 64 →
     let g := s.stage (stageOf s.cur.1)
     let w := wordsOf (s.readBytes (ulmAddr s.cur.1 o) 64)
     (256 ≤ g.tasks.length → exec (.tsub a) s = .next s.stalls) ∧
     (g.tasks.length < 256 → recBits w 0x00 0 3 = 0 → recBits w 0x00 8 9 = 0 → recBits w 0x04 0 15 ≤ 128 →
       recBits w 0x04 16 31 ≤ 128 → (128 < recBits w 0x0C 16 22 + recBits w 0x04 0 15 ∨
         128 < recBits w 0x0C 24 30 + recBits w 0x04 16 31) →
       exec (.tsub a) s = .next (s.traps Cause.dimension 0x0C#64)) ∧
     (g.tasks.length < 256 → recordRules w → (∀ x ∈ g.tasks, x.tag ≠ recBits w 0x00 16 31) →
       (recBits w 0x00 11 11 = 1 ∨ s.grade.hasEngine (stageOf s.cur.1) (recBits w 0x00 12 15 / 4) = true) → recBits w 0x00 10 10 = 1 →
       let core := recBits w 0x18 0 13
       (s.grade.hasCore core = false → exec (.tsub a) s = .next (s.traps Cause.mapAddress 0x18#64)) ∧
       (s.grade.hasCore core = true → s.samePart s.cur.1 core = false →
         exec (.tsub a) s = .next (s.traps Cause.partitionBoundary 0x18#64)))) ∧
  (∀ (s : State) (a : Src) (b : VName) (w : Bool), s.readable a.reg → filled s [b] → s.fenceWaits .m = [] →
     let st := stageOf s.cur.1
     let g := s.stage st
     let x := (s.img.word a.reg).toNat
     let n := x % 4
     let grp := x / 16 % 8
     let c := g.channel n
     x < 256 → x / 4 % 4 = 0 →
     (g.keeper.toNat = 2 ^ 14 + s.cur.1 → (if c.fill then c.full1 else c.full0) = false →
       ∃ t c', exec (.skbc a b w) s = .next t ∧ t.img.x = (s.img.popped a.reg).x ∧ t.mem = s.mem ∧
         (t.stage st).channel n = c' ∧ (∀ m, m ≠ n → (t.stage st).channel m = g.channel m) ∧
         (∀ i, i < 16 → c'.entry (c.fill.toNat * 128 + 16 * grp + i) = (vec s.img b).extractLsb' (32 * i) 32) ∧
         (∀ j, (∀ i, i < 16 → j ≠ c.fill.toNat * 128 + 16 * grp + i) → c'.entry j = c.entry j) ∧
         c'.consume = c.consume ∧ c'.fill = (if x / 128 = 1 then !c.fill else c.fill) ∧
         c'.full0 = (c.full0 || (x / 128 == 1 && !c.fill)) ∧ c'.full1 = (c.full1 || (x / 128 == 1 && c.fill))) ∧
     (g.keeper.getLsbD 14 = false ∨ g.keeper.toNat % 2 ^ 14 ≠ s.cur.1 →
       exec (.skbc a b w) s = .next (s.traps Cause.notScaleKeeper (BitVec.ofNat 64 n)))) ∧
  (∀ (s : State) (a : Src) (o : Nat), s.readable a.reg →
     localOffset s.img.mode (s.img.sourceVal a.reg) true false 0 64 = some o → clear s .m o 64 → s.fenceWaits .m = [] →
     let st := stageOf s.cur.1
     let g := s.stage st
     let w := wordsOf (s.readBytes (ulmAddr s.cur.1 o) 64)
     let count := recBits w 0x00 4 6 + 1
     let dword (o : Nat) := recBits w o 0 31 + 2 ^ 32 * recBits w (o + 4) 0 31
     let rows := dword 0x10 / 2 ^ 18 % 2 ^ 16
     let c : Command := ⟨w, s.cur.1, s.cur.2, s.curThread.slot.epoch, g.commandOrder, false, .waiting, 0, [], [], 0, 0#4,
       List.replicate count .waiting, none⟩
     c.formed = true →
     (recBits w 0x00 7 11 ≠ 0 ∧ s.cur.2 = 16 → exec (.xcopy a) s = .next (s.traps Cause.engineOperand 0#64)) ∧
     ((recBits w 0x00 7 11 = 0 ∨ s.cur.2 ≠ 16) →
       (recBits w 0x00 0 3 = 2 → ∀ i, i < count → recBits w (0x20 + 4 * i) 0 13 = s.cur.1 →
         recBits w (0x20 + 4 * i) 14 19 ≠ recBits w 0x08 0 5) →
       (s.img.mode = .user →
         (recBits w 0x00 0 3 = 1 → rows = 0 ∨ dword 0x10 % 2 ^ 18 + 4 * rows ≤ 0x38000) ∧
         (recBits w 0x00 0 3 = 3 → recBits w 0x04 0 31 = 0 ∨ dword 0x08 + recBits w 0x04 0 31 ≤ 0x38000)) →
       (∀ i, i < count → rowOf (recBits w (0x20 + 4 * i) 0 13) < 80) → g.commands.length < 64 → g.halted = 0 →
       exec (.xcopy a) s = .next (s.completes ((s.pop a.reg).setStage st
         { g with commands := g.commands.set g.commandOrder c, commandOrder := g.commandOrder + 1 }))))

/-- 13 R270, R271: with the engine idle and kept by no other instruction, `sbpld` reads the block at s1's cursor and, where it passes
R72, pins it in a table slot of the engine, and `sbprd` reads a running sum, a difference, a slot status or a lane status; index,
lane and reserved bits outside their rows trap, and so does an engine that is fused off (log 21). -/
def Obligations.PartsEngines : Prop :=
  (∀ (s : State) (a b : Src) (o n : Nat) (k : Block), s.readable a.reg → s.readable b.reg → s.fenceWaits .m = [] →
    let st := stageOf s.cur.1
    let g := s.stage st
    let v := (s.img.word b.reg).toNat
    let e := v % 4
    let bytes := s.readBytes (ulmAddr s.cur.1 o) n
    let kind := (s.readByte (ulmAddr s.cur.1 o)).toNat
    v < 32 → s.grade.hasEngine st e = true → g.holds = [] → (g.engine e).running = none →
    (∀ t ∈ g.tasks, t.submitter ≠ s.cur.1) →
    ((kind = 4 ∧ n = 144) ∨ (kind = 8 ∧ n = 256)) →
    localOffset s.img.mode (s.img.sourceVal a.reg) true false 0 16 = some o →
    accessCheck (s.img.sourceVal a.reg) needL 0 n 16 s = .ok (.local o, s) → clear s .m o n → decodeBlock bytes = some k →
    ∃ t, exec (.sbpld a b) s = .next t ∧ t.img.x = (s.pop2 a.reg b.reg).img.x ∧ t.mem = s.mem ∧
      ((t.stage st).engine e).slots.find (v / 4) = some ⟨k, true⟩ ∧
      (∀ j, j ≠ v / 4 → ((t.stage st).engine e).slots.find j = (g.engine e).slots.find j) ∧
      ((t.stage st).engine e).acc = (g.engine e).acc ∧ (t.stage st).holds = []) ∧
  (∀ (s : State) (d : XName) (a : Src), s.img.writable d → s.readable a.reg → s.fenceWaits .m = [] →
    let st := stageOf s.cur.1
    let g := s.stage st
    let v := (s.img.word a.reg).toNat
    let e := v % 4
    let lane := v / 4 % 2
    let k := v / 8 % 128
    let select := v / 1024 % 4
    let legal := v < 4096 ∧ (select = 2 → k < 8 ∧ lane = 0) ∧ (select = 3 → k = 0) ∧ s.grade.hasEngine st e = true
    (legal → g.holds = [] → (g.engine e).running = none →
      ∃ t, exec (.sbprd d a) s = .next t ∧
        t.img.x = ((s.img.popped a.reg).putWord d (engineState (g.engine e) select k lane)).x ∧ t.mem = s.mem ∧
        (t.stage st).engines = g.engines) ∧
    (¬ legal → exec (.sbprd d a) s = .next (s.traps Cause.engineOperand 0#64)))

/-- R241, R246, R247, R249: the first task that the gate has admitted on an engine which may start there (its streams unclaimed, its
predecessors ended, the engine idle and not held) starts, its pinned slots being loaded: running there, its streams claimed; CLEAR sets
its region to +0.0. One whose predecessor has faulted faults instead.

R239, 04 R57: a play of the head tile of a claimed stream brings its bytes to the FIFO of the operand whose need is not met
(SBP blocks also enter the table slots, 13 R263);
after its last play the tile goes back to its core, which finds it ready, with its counter bumped.

R247, 05 R75, 13 R260: once the operands of its next promotion block have arrived, a task adds the block to every element of its
region, from the old value or +0.0, and leaves every other element; a task in keeper mode takes its row scales from the full buffer at the
consume pointer, and then frees it (R252).

R247 to R249: a task whose blocks are all added completes, its engine idle, its streams free and its counter bumped; one that
drains first takes its tile, and then fills it with the region in the drain format.

26 R373, R376: the gate admits the first start that needs a step if the slopes of the ramps in progress, its own among them, sum to
at most `didt.limit` (26 R381: as it stood before a write of the same cycle); a ramp leaves the sum when its cycles have elapsed; a `didt.limit` of 0 and an `eng.ramp` below 16 are
ignored. -/
def Obligations.TasksRun : Prop :=
  (∀ (s : State) (st e : Nat) (t : Task),
     (s.stage st).tasks.find? (s.admittedOpen st e) = some t → t.step ((s.stage st).engine e) = 0 →
     t.badSlot ((s.stage st).engine e) = none →
     (t.doomed.isSome = true → ∃ u, exec (.taskStart st e) s = .next u ∧ (u.stage st).engines = (s.stage st).engines ∧
       (u.stage st).ended.head? = some { t with engine := e, status := 4#3, cause := Cause.predecessorFault }) ∧
     (t.doomed = none → ∃ u, exec (.taskStart st e) s = .next u ∧ ((u.stage st).engine e).running = some t.seq ∧
       (u.stage st).tasks = (s.stage st).tasks.map (fun x =>
         if x.seq = t.seq then { t with status := 2#3, engine := e, admitted := false } else x) ∧
       (∀ n ∈ t.streams, ((u.stage st).stream n).claim = some e) ∧ u.mem = s.mem ∧ u.tags = s.tags ∧
       (t.opcode = 2 → ∀ i j, i < t.rows → j < t.cols → ((u.stage st).engine e).accAt (t.accKey i j) = 0#32) ∧
       (t.opcode ≠ 2 → 0 < t.depth → ((u.stage st).engine e).acc = ((s.stage st).engine e).acc))) ∧
  ((∀ (s : State) (st n e core tile left : Nat) (counter : Option Nat) (begun b : Bool) (rest : List Segment) (t : Task),
     (s.stage st).stream n = ⟨.tile core tile left counter begun :: rest, some e⟩ → s.runningTask st e = some t →
     (s.stage st).halted < 2 →
     let x := (s.stage st).engine e
     let k := (s.core core).tile tile
     let data := s.readBytes (ulmAddr core k.base.toNat) k.size.toNat
     let fmt := if b then t.bFormat else t.aFormat
     let fifo := if b then x.fifoB else x.fifoA
     let played (u : State) : Prop :=
       (if b then ((u.stage st).engine e).fifoB else ((u.stage st).engine e).fifoA) = fifo ++ [⟨k.format, data, []⟩] ∧
       ((u.stage st).stream n).segs = (if left ≤ 1 then rest else .tile core tile (left - 1) counter true :: rest) ∧
       u.reqs = (if left ≤ 1 then
         s.reqs ++ [{ Req.device core (.segReturn core tile counter false) with place := .core core, id := s.nextId }]
         else s.reqs) ∧ u.mem = s.mem
     x.wants t n = some b → k.format.toNat = fmt →
     (begun = true ∨ k.trailer = false ∨
       trailerOk fmt data (s.readBytes (ulmAddr core (k.base.toNat + k.size.toNat)) 16) = true) →
     (∀ count, fmt ≠ 15 → elemCount fmt k.size.toNat = some count → arrived fifo + count ≤ t.need b →
       ∃ u, exec (.segmentPlay st n) s = .next u ∧ played u ∧ ((u.stage st).engine e).slots = x.slots) ∧
     (∀ (l : List (List Byte)) (slots : Assoc TableSlot), fmt = 15 → b = true → splitBlocks data.length data = .ok l →
       arrived fifo + l.length ≤ t.need b → loadBlocks x.slots (arrived fifo) l = (slots, none) →
       ∃ u, exec (.segmentPlay st n) s = .next u ∧ played u ∧ ((u.stage st).engine e).slots = slots)) ∧
   (∀ (s : State) (id core tile : Nat) (r : Req) (counter : Option Nat) (faulted : Bool), s.req id = some r →
     r.body = .segReturn core tile counter faulted →
     let k := (s.core core).tile tile
     let t := (s.drop id).setTile core tile { k with owner := false, state := 2#2, fault := k.fault || faulted }
     exec (.segmentReturn id) s = .next (match counter with | some c => t.unitBump (stageOf core) core c 1 | none => t))) ∧
  (∀ (s : State) (st e : Nat) (t : Task), s.runningTask st e = some t → (s.stage st).halted < 2 → t.block < t.blocks →
     t.row0 + t.rows ≤ 128 → t.col0 + t.cols ≤ 128 →
     let x := (s.stage st).engine e
     let k := t.depth
     let k0 := t.block * t.blockSize
     let n := min t.blockSize (k - k0)
     let a := playValues x.fifoA
     let row (i : Nat) := (a.drop (i * k + k0)).take n
     let c := (s.stage st).channel t.channel
     let scale (i : Nat) := if t.scaleMode = 1 then some (c.entry (c.consume.toNat * 128 + i)).toNat else none
     let old (i j : Nat) := if t.block = 0 ∧ t.accumulate = false then 0 else (x.accAt (t.accKey i j)).toNat
     let done (u : State) (v : Nat → Nat → Nat) : Prop :=
       (∀ i j, i < t.rows → j < t.cols → ((u.stage st).engine e).accAt (t.accKey i j) = BitVec.ofNat 32 (v i j)) ∧
       (∀ q, (∀ i j, i < t.rows → j < t.cols → q ≠ t.accKey i j) → ((u.stage st).engine e).accAt q = x.accAt q) ∧
       (u.stage st).tasks = (s.stage st).tasks.map (fun y => if y.seq = t.seq then { t with block := t.block + 1 } else y) ∧
       (t.scaleMode = 1 → (u.stage st).channel t.channel = c.release) ∧ u.mem = s.mem
     (t.scaleMode = 1 → (if c.consume then c.full1 else c.full0) = true) →
     (t.rows - 1) * k + k0 + n ≤ a.length →
     (t.opcode = 0 → let b := playValues x.fifoB
       (t.cols - 1) * k + k0 + n ≤ b.length →
       ∃ u, exec (.promotionBlock st e) s = .next u ∧
         done u fun i j => addBlock (old i j) ((row i).zip ((b.drop (j * k + k0)).take n)) (scale i)) ∧
     (t.opcode = 1 → k % 128 = 0 → ∀ block : Nat → Block,
       (∀ j, j < t.cols → t.sbpBlock x (playBlocks x.fifoB) j t.block = some (block j)) →
       ∃ u, exec (.promotionBlock st e) s = .next u ∧
         done u fun i j => sbpGroup t.aFormat (old i j) (row i) (block j) (scale i))) ∧
  (∀ (s : State) (st e : Nat) (t : Task), s.runningTask st e = some t → t.blocks ≤ t.block → (s.stage st).halted < 2 →
     let ended (u v : State) : Prop :=
       v = (if t.counts then u.unitBump st t.counterCore t.counter 1 else u) ∧
       (u.stage st).tasks = (s.stage st).tasks.filter (fun x => x.seq != t.seq) ∧
       (u.stage st).ended = ({ t with status := 3#3, cause := 0#7 } :: (s.stage st).ended).take 64 ∧
       ((u.stage st).engine e).running = none ∧ ((u.stage st).engine e).fifoA = [] ∧ ((u.stage st).engine e).fifoB = [] ∧
       ((u.stage st).engine e).acc = ((s.stage st).engine e).acc ∧
       (∀ n ∈ t.streams, ((u.stage st).stream n).claim = none ∧ ((u.stage st).stream n).segs = ((s.stage st).stream n).segs)
     let k := (s.core t.drainCore).tile t.drainTile
     (t.drains = false → ∃ u v, exec (.taskComplete st e) s = .next v ∧ ended u v ∧ u.mem = s.mem) ∧
     (t.drains = true → t.filling = false → k.owner = false → (k.state = 0#2 ∨ k.state = 2#2) →
       exec (.taskDrain st e) s = .next ((s.setTile t.drainCore t.drainTile
         { k with owner := true, engine := engineName st 4, state := 1#2 }).putTask st { t with filling := true })) ∧
     (t.drains = true → t.filling = true → k.size ≠ 0#18 → sizeFor t.drainFormat (t.rows * t.cols) = some k.size.toNat →
       let f := encodeTile t.drainFormat s.freeIx (((s.stage st).engine e).regionValues t)
       ∃ u v, exec (.taskDrain st e) s = .next v ∧ ended u v ∧
         (u.core t.drainCore).tile t.drainTile =
           { k with owner := false, state := 2#2, fault := false, trailer := isQuant t.drainFormat } ∧
         u.mem = (let m := storeBytes s.mem (ulmAddr t.drainCore k.base.toNat) f.data
           if isQuant t.drainFormat then
             storeBytes m (ulmAddr t.drainCore (k.base.toNat + k.size.toNat)) (trailerBytes t.drainFormat f)
           else m))) ∧
  ((∀ (s : State) (die : Nat) (r : Ready), s.firstStep die = some r →
     let d := s.die die
     let m := rampOf s die (r.task.step ((s.stage r.stage).engine r.engine))
     let live := d.ramps.filter fun x => decide (s.cycle < x.ends)
     0 < m.length → (∀ x ∈ live, 0 < x.length) → ((m :: live).map slope).foldr (· + ·) 0 ≤ (d.limit s.cycle : Rat) →
     ∃ u, exec (.gateAdmit die) s = .next u ∧ (u.die die).ramps = d.ramps ++ [m] ∧
       ((u.stage r.stage).engine r.engine).level = r.task.level ∧
       (u.stage r.stage).tasks = (s.stage r.stage).tasks.map (fun x =>
         if x.seq = r.task.seq then { r.task with admitted := true, engine := r.engine } else x)) ∧
   (∀ (s : State) (die : Nat), exec (.rampEnd die) s = .next (s.setDie die
     { s.die die with ramps := (s.die die).ramps.filter fun x => decide (s.cycle < x.ends) })) ∧
   (∀ (s : State) (die v : Nat), v < 1024 →
     exec (.didtLimitWrite die v) s = .next (if v = 0 then s else s.setDie die { s.die die with
       didt := BitVec.ofNat 10 v, didtOld := BitVec.ofNat 10 ((s.die die).limit s.cycle), didtAt := s.cycle })) ∧
   (∀ (s : State) (die v : Nat), v < 4096 →
     exec (.engRampWrite die v) s = .next (if v < 16 then s else s.setDie die { s.die die with engRamp := BitVec.ofNat 12 v })))

/-- R253, R254, 05 R74: the copy engine starts a command, and reads its source: the ULM extent of a kind 3 command, the DRAM bytes of
a kind 0 command, the row indices of a kind 1 command, and the tile of a kind 2 or 4 command through its drain (which tile of kind 4:
log 11), where a trailer that does not agree with the bytes fails the source; kind 4 writes the bytes to DRAM, and the tile returns
ready.

R92, R95, R255, 05 R73: a destination tile of the partition that is empty or ready is taken and then filled, ready and core-owned
with its counter bumped: with the bytes themselves, of its size, or, between formats that differ, with the elements converted, of the
size that their number takes, and a trailer behind them where the format is a quantised one. A destination outside the partition, of
another size, into or out of format 15, or of a source that failed is left empty with its fault bit set, and its cause posted. Of kind
4 the counter is bumped alone. With all destinations ended the issuer's counter goes up by the number filled, and the status register
gets a bit for each. -/
def Obligations.CopiesRun : Prop :=
  (∀ (s : State) (st k : Nat) (c : Command), (s.stage st).commands = [(k, c)] →
     let kind := recBits c.words 0x00 0 3
     let low := recBits c.words 0x08 0 31 + 2 ^ 32 * recBits c.words 0x0C 0 31
     let len := recBits c.words 0x04 0 31
     let got (u : State) (c' : Command) : Prop := (u.stage st).commands = [(k, c')]
     (c.started = false → (s.stage st).halted = 0 →
       ∃ u x, exec (.copyCommandStart st) s = .next u ∧ got u { c with started := true, tile := x } ∧ u.mem = s.mem ∧
         (kind ≠ 4 → x = low % 64)) ∧
     (c.started = true → c.suspended = none → c.source = .waiting → kind = 3 →
       ∃ u, exec (.copyCommandStart st) s = .next u ∧
         got u { c with data := s.readBytes (ulmAddr c.core low) len, source := .ready } ∧ u.mem = s.mem) ∧
     (c.started = true → c.suspended = none → c.source = .waiting → (kind = 0 ∨ kind = 1) →
       let list := recBits c.words 0x10 0 31 + 2 ^ 32 * recBits c.words 0x14 0 31
       ∃ u, exec (.copyCommandStart st) s = .next u ∧ got u { c with source := .moving, indices := if kind = 1 then
         (wordsOf (s.readBytes (ulmAddr c.core (list % 2 ^ 18)) (4 * (list / 2 ^ 18 % 2 ^ 16)))).map BitVec.toNat else [] } ∧
         u.mem = s.mem) ∧
     (let t := (s.core c.core).tile c.tile
      let bytes := s.readBytes (ulmAddr c.core t.base.toNat) t.size.toNat
      let intact := t.trailer = false ∨
        trailerOk t.format.toNat bytes (s.readBytes (ulmAddr c.core (t.base.toNat + t.size.toNat)) 16) = true
      c.started = true → c.suspended = none → (kind = 2 ∨ kind = 4) →
      (c.source = .waiting → s.strayCounter c = false → t.state = 2#2 → t.owner = false →
        ∃ u, exec (.copyCommandStart st) s = .next u ∧ got u { c with source := .draining } ∧ u.mem = s.mem ∧
          (u.core c.core).tile c.tile = { t with owner := true, engine := engineName st 4, state := 3#2 }) ∧
      (c.source = .draining → intact →
        ∃ u, exec (.copyCommandStart st) s = .next u ∧ u.mem = s.mem ∧
          got u { c with data := bytes, format := t.format, source := if kind = 2 then .ready else .moving } ∧
          (u.core c.core).tile c.tile = if kind = 2 then { t with owner := false, state := 2#2, fault := false } else t) ∧
      (c.source = .draining → ¬ intact →
        ∃ u, exec (.copyCommandStart st) s = .next u ∧ u.mem = s.mem ∧
          got u { c with source := .failed Cause.trailerChecksum 0#64 (BitVec.ofNat 64 c.tile) } ∧
          (u.core c.core).tile c.tile = { t with owner := false, state := 2#2, fault := true })) ∧
     (∀ (p : DramAt) (n : Nat) (bs : List Byte) (v : State), c.started = true → c.suspended = none → c.source = .moving → kind = 0 →
       s.commandSO st c = false → c.data.length < len → n = len - c.data.length → bs.length = n →
       s.look (.copy st) (s.contextOfStage st) ((low % 2 ^ 57 + c.data.length) % 2 ^ 57) 4#3 = .hit p → n ≤ p.run →
       n ≤ p.page - p.phys % p.page → s.dramRead false p n = (.ok bs, v) → (v.stage st).commands = (s.stage st).commands →
       ∃ u, exec (.copyCommandStart st) s = .next u ∧ got u { c with data := c.data ++ bs, source := .ready } ∧ u.mem = v.mem) ∧
     (∀ (p : DramAt) (n : Nat) (v : State), c.started = true → c.suspended = none → c.source = .moving → kind = 4 →
       s.commandSO st c = false → c.done < c.data.length → n = c.data.length - c.done →
       s.look (.copy st) (s.contextOfStage st) ((low % 2 ^ 57 + c.done) % 2 ^ 57) 2#3 = .hit p → n ≤ p.run →
       n ≤ p.page - p.phys % p.page → s.dramWrite unitTask p (c.data.drop c.done) = (.ok (), v) →
       (v.stage st).commands = (s.stage st).commands →
       ∃ u, exec (.copyCommandStart st) s = .next u ∧ got u { c with done := c.data.length, source := .ready } ∧ u.dram = v.dram ∧
         (u.core c.core).tile c.tile = { (v.core c.core).tile c.tile with owner := false, state := 2#2, fault := false })) ∧
  (∀ (s : State) (st k : Nat) (c : Command), (s.stage st).commands.find k = some c →
     let kind := recBits c.words 0x00 0 3
     let core (j : Nat) := recBits c.words (0x20 + 4 * j) 0 13
     let tile (j : Nat) := recBits c.words (0x20 + 4 * j) 14 19
     let at' (j : Nat) := (s.core (core j)).tile (tile j)
     let bumped (j : Nat) (u : State) : State :=
       if recBits c.words (0x20 + 4 * j) 26 26 = 1 then u.unitBump st (core j) (recBits c.words (0x20 + 4 * j) 20 25) 1 else u
     let ends (j : Nat) (u : State) (d : CopyDest) := (u.stage st).commands.find k = some { c with dests := c.dests.set j d }
     let posted (j : Nat) (u : State) (cause : BitVec 7) := ∀ p, s.partOfStage st = some p →
       ∃ q ∈ u.reqs, ∃ y : CauseRecord, q.body = .post p y ∧ y.cause = cause ∧ y.core = BitVec.ofNat 14 (core j)
     let fails (j : Nat) (cause : BitVec 7) := ∃ u, exec (.copyDestinationFill st k j) s = .next u ∧ u.mem = s.mem ∧
       (u.core (core j)).tile (tile j) = { at' j with owner := false, state := 0#2, fault := true } ∧ ends j u .failed ∧ posted j u cause
     let fills (j : Nat) (mem : List Host.Cell) (trailer : Bool) := ∃ (u : State) (n : Nat),
       exec (.copyDestinationFill st k j) s = .next { bumped j u with freeIx := n } ∧ u.mem = mem ∧
       (u.core (core j)).tile (tile j) = { at' j with owner := false, state := 2#2, fault := false, trailer := trailer } ∧ ends j u .filled
     (∀ j, (c.source = .ready ∨ ∃ x d0 d1, c.source = .failed x d0 d1) → kind < 4 → c.dests[j]? = some .waiting →
       (isCore (core j) = true → s.sameStage c.core (stageOf (core j)) = true → (at' j).owner = false →
         ((at' j).state = 0#2 ∨ (at' j).state = 2#2) →
         exec (.copyDestinationFill st k j) s = .next ((s.setTile (core j) (tile j)
           { at' j with owner := true, engine := engineName st 4, state := 1#2 }).setCommand st k
             { c with dests := c.dests.set j .filling })) ∧
       (s.sameStage c.core (stageOf (core j)) = false → s.grade.hasCore (core j) = true → fails j Cause.partitionBoundary)) ∧
     (∀ j, kind < 4 → c.dests[j]? = some .filling →
       let t := at' j
       let src := c.format.toNat
       let dst := t.format.toNat
       let plain := kind ≠ 2 ∨ src = dst ∨ src = 0 ∨ dst = 0
       let base := ulmAddr (core j) t.base.toNat
       (∀ x d0 d1, c.source = .failed x d0 d1 → fails j x) ∧
       (c.source = .ready → t.size = 0#18 ∨ (plain ∧ c.data.length ≠ t.size.toNat) → fails j Cause.tileSize) ∧
       (c.source = .ready → t.size ≠ 0#18 → plain → c.data.length = t.size.toNat →
         fills j (if c.inPlace t j then s.mem else storeBytes s.mem base c.data) false) ∧
       (c.source = .ready → t.size ≠ 0#18 → ¬ plain → src = 15 ∨ dst = 15 → fails j Cause.sbpTable) ∧
       (c.source = .ready → t.size ≠ 0#18 → ¬ plain → src ≠ 15 → dst ≠ 15 →
         ((elemCount src c.data.length).bind (sizeFor dst) ≠ some t.size.toNat → fails j Cause.tileSize) ∧
         ((elemCount src c.data.length).bind (sizeFor dst) = some t.size.toNat →
           let e := encodeTile dst s.freeIx (tileValues src c.data)
           let m := storeBytes s.mem base e.data
           fills j (if 4 ≤ dst then storeBytes m (base + t.size.toNat) (trailerOf dst e) else m) (decide (4 ≤ dst))))) ∧
     (kind = 4 → c.dests[0]? = some .waiting →
       (c.source = .ready → ∃ u, exec (.copyDestinationFill st k 0) s = .next (bumped 0 u) ∧ u.mem = s.mem ∧ ends 0 u .filled) ∧
       (∀ x d0 d1, c.source = .failed x d0 d1 → ∃ u, exec (.copyDestinationFill st k 0) s = .next u ∧ u.mem = s.mem ∧
         ends 0 u .failed ∧ (u.core (core 0)).counters = (s.core (core 0)).counters)) ∧
     ((∀ d ∈ c.dests, d = .filled ∨ d = .failed) →
       (s.thread c.core c.ctx).slot.epoch = c.epoch → (s.thread c.core c.ctx).slot.status ≠ .free → c.ctx ≠ 16 →
       let n := (c.dests.filter fun d => d == .filled).length
       let u := s.setStage st { s.stage st with commands := (s.stage st).commands.del k }
       let u := if recBits c.words 0x00 18 18 = 1 ∧ n ≠ 0 then u.unitBump st c.core (recBits c.words 0x00 12 17) n else u
       exec (.copyCommandComplete st k) s = .next (u.windowX none c.core c.ctx (recBits c.words 0x00 7 11) 0
         (bytesOfNat 16 (bitsOf (c.dests.map fun d => d == .filled))))))

/-! ## Rays and work graphs -/

/-- R285, R286: `raygo`, `spsrc`, `spins`, `spsettle`, `spdone`, `raystop` and `rayfree` on a slot that their handle names, in the
states in which the row acts; each change is followed by R282's consuming, and a handle of another generation traps "ray handle".

R285, checks 1 and 5: reserved bits of a handle trap "ray operand"; a handle of a slot that is free, or of another generation,
traps "ray handle".

14 R279, R280: a surface, a clip and an interval as an insertion puts them into the list. A surface in the range is added in key
order, and a piece that holds it inside is cut there; an opaque one also clips the list. An interval makes a piece where none is, adds
to the piece of its range, and cuts a piece that reaches beyond it (boundaries as log 77 has them).

14 R281: a merged entry absorbs a piece inside it, and a surface from its start to before its end; and a seventeenth entry is
merged with the sixteenth; each adds 1 to the overflow count.

14 R282: what follows an operation on a running ray. The first entry is consumed where it is consumable under the settled bound,
and the next one where that one is; from the opacity threshold on the ray stops with status 3 and no list. -/
def Obligations.RayInstructions : Prop :=
  (∀ (s : State) (a b : Src) (st n k : Nat), s.readable a.reg → s.readable b.reg → s.fenceWaits .m = [] →
     names s (s.img.word a.reg) st n k →
     let v := s.img.word a.reg
     let r := (s.stage st).ray n
     let w := s.img.word b.reg
     let x := r.sources.getD k ⟨false, false, 0#32, 0#14, 0#8⟩
     let one := s.pop a.reg
     let two := s.pop2 a.reg b.reg
     (k = 0 → exec (.raygo a) s = .next (
       if r.status = 1#4 then s.completes (one.settleRay st n { r with status := 2#4 }) else s.traps Cause.rayState v)) ∧
     (r.status = 1#4 → x.registered = false → w.toNat < 2 ^ 22 → isCore (w.toNat % 2 ^ 14) = true →
       s.samePart s.cur.1 (w.toNat % 2 ^ 14) = true →
       exec (.spsrc a b) s = .next (s.completes (two.setRay st n (putSource r k
         ⟨true, false, r.tmin, BitVec.ofNat 14 w.toNat, BitVec.ofNat 8 (w.toNat / 2 ^ 14)⟩)))) ∧
     ((r.status = 2#4 ∨ r.status = 5#4) → x.registered = true → x.done = false →
       (∀ o ans, accessCheck (s.img.sourceVal b.reg) needL 0 32 16 s = .ok (.local o, s) → clear s .m o 32 →
         decodeAnswer (s.readBytes (ulmAddr s.cur.1 o) 32) = some ans → le32 x.settled ans.t0 = true →
         exec (.spins a b) s = .next (s.completes (two.settleRay st n (r.insert ans)))) ∧
       (∀ m ans, accessCheck (s.img.sourceVal b.reg) needL 0 32 16 s = .ok (.map m, s) → s.sameLocation m 32 = [] →
         decodeAnswer (s.mapRead m 32).1 = some ans → le32 x.settled ans.t0 = true →
         exec (.spins a b) s = .next (s.completes (two.settleRay st n (r.insert ans)))) ∧
       (w.toNat < 2 ^ 32 → isNaN32 (w.setWidth 32) = false →
         exec (.spsettle a b) s = .next (s.completes (two.settleRay st n
           (putSource r k { x with settled := max32 x.settled (w.setWidth 32) })))) ∧
       exec (.spdone a) s = .next (s.completes (one.settleRay st n (putSource r k { x with done := true })))) ∧
     (k = 0 → r.status = 2#4 → ((one.settleRay st n r).stage st).ray n = r →
       exec (.raystop a) s = .next (s.completes ((one.settleRay st n r).rayStop st n r 4#4))) ∧
     (k = 0 → r.owner = s.cur.1 → r.status ≠ 2#4 →
       exec (.rayfree a) s = .next (s.completes (one.setRay st n
         { Ray.free with gen := if r.gen = 16383#14 then 1#14 else r.gen + 1#14 })))) ∧
  (∀ (s : State) (a : Src), s.readable a.reg → s.fenceWaits .m = [] →
     let v := s.img.word a.reg
     (2 ^ 32 ≤ v.toNat → ∀ i : Instr, i = .raygo a ∨ i = .raystop a ∨ i = .rayfree a →
       exec i s = .next (s.traps Cause.rayOperand v)) ∧
     (∀ st n gen, st < 160 → n < 1024 → gen < 2 ^ 14 → v.toNat = handleWord st n gen 0 → s.grade.noStage.contains st = false →
       s.sameStage s.cur.1 st = true → s.travUpdating st = false → ((s.stage st).ray n).status = 0#4 ∨ ((s.stage st).ray n).gen.toNat ≠ gen →
       ∀ i : Instr, i = .raygo a ∨ i = .raystop a ∨ i = .rayfree a → exec i s = .next (s.traps Cause.rayHandle v))) ∧
  ((∀ (r : Ray) (ans : Answer), surfaceTaken r ans → numbers r → (val16 ans.tau).isInf = false →
     (∀ x ∈ r.spans, x.covers ans.t0 ans.t0 = false) → (r.spans.flatMap (splitAt (bound32 ans.t0))).length < 16 →
     ∃ l, r.insert ans = { r with spans := l } ∧ l.Perm (ans.surface :: r.spans.flatMap (splitAt (bound32 ans.t0))) ∧
       l.Pairwise inOrder) ∧
   (∀ (r : Ray) (ans : Answer), surfaceTaken r ans → numbers r → (val16 ans.tau).isInf = true → r.clip = none →
     (∀ x ∈ r.spans, x.covers ans.t0 ans.t0 = false) → r.spans.length < 16 →
     ∃ l, r.insert ans = { r with clip := some (bound32 ans.t0, ans.kind, ans.prim), spans := l } ∧
       l.Perm (ans.surface :: r.spans.filterMap (leftBy (bound32 ans.t0) ans.kind ans.prim)) ∧ l.Pairwise inOrder) ∧
   (∀ (r : Ray) (ans : Answer), eq32 ans.t0 ans.t1 = false →
     let p := bound32 (max32 ans.t0 (clipRange r).1)
     let q := bound32 (min32 ans.t1 (clipRange r).2)
     let c := contribution ans
     (lt32 p q = false → r.spans = [] → r.insert ans = r) ∧
     (lt32 p q = true → r.spans = [] → r.insert ans = { r with spans := [c.piece p q] }) ∧
     (∀ x, lt32 p q = true → r.spans = [x] → x.form = .interval → x.a = p → x.b = q →
       ∃ y, r.insert ans = { r with spans := [y] } ∧ added x y c p q) ∧
     (∀ x, lt32 p q = true → r.spans = [x] → x.form = .interval → lt32 x.a p = true → lt32 q x.b = true →
       ∃ y, r.insert ans = { r with spans := [{ x with b := p }, y, { x with a := q }] } ∧ added x y c p q))) ∧
  ((∀ (r : Ray) (ans : Answer) (x : Span), r.spans = [x] → x.form = .merged → r.overflow ≠ 255#8 →
     let p := bound32 (max32 ans.t0 (clipRange r).1)
     let q := bound32 (min32 ans.t1 (clipRange r).2)
     let c := contribution ans
     let tau := step32 FVal.mul (val32 c.rho) (((val32 q).minus (val32 p)).getD (.nan false))
     let colour := map3 (fun e => if (val16 ans.tau).isZero then 0#32 else colourOf (val16 ans.tau) e) ans.emission
     (eq32 ans.t0 ans.t1 = false → lt32 p q = true → le32 x.a p = true → le32 q x.b = true →
       r.insert ans = { r with
         spans := [{ x with tau := add32 x.tau tau, e := zip3 (fused32 x.tau) x.e (map3 (shade32 tau) colour) }]
         overflow := r.overflow + 1#8 }) ∧
     (surfaceTaken r ans → (val16 ans.tau).isInf = false → le32 x.a ans.t0 = true → lt32 ans.t0 x.b = true →
       r.insert ans = { r with
         spans := [{ x with tau := add32 x.tau (widen32 ans.tau), e := zip3 (fused32 x.tau) x.e (map3 bits32 ans.emission) }]
         overflow := r.overflow + 1#8 })) ∧
   (∀ (r : Ray) (ans : Answer) (l : List Span) (x : Span), surfaceTaken r ans → (val16 ans.tau).isInf = false →
     r.spans = l ++ [x] → l.length = 15 → r.overflow ≠ 255#8 → r.spans.Pairwise (fun x y => lt32 x.a y.a = true) →
     (∀ y ∈ r.spans, lt32 y.a ans.t0 = true ∧ (y.form = .surface ∨ le32 y.b ans.t0 = true)) →
     let u := consumption x
     r.insert ans = { r with
       spans := l ++ [{ x with
         form := .merged, b := ans.t0, tau := add32 u.1 (widen32 ans.tau)
         e := zip3 (fused32 u.1) u.2 (map3 bits32 ans.emission)
         conf := if ans.conf < x.conf then ans.conf else x.conf, kind := 7#3 }]
       overflow := r.overflow + 1#8 })) ∧
  ((∀ (s : State) (st n : Nat) (r : Ray) (x : Span) (rest : List Span), r.status = 2#4 → r.spans = x :: rest →
     ¬ mayConsume x r.bound → s.settleRay st n r = s.setRay st n r) ∧
   (∀ (s : State) (st n : Nat) (r : Ray) (x y : Span) (rest : List Span), r.status = 2#4 → r.spans = x :: y :: rest →
     mayConsume x r.bound → ¬ mayConsume y r.bound →
     let r' := consumed r x (y :: rest)
     le32 r.threshold (sub32 one32 r'.front) = false → s.settleRay st n r = s.setRay st n r') ∧
   (∀ (s : State) (st n : Nat) (r : Ray) (x : Span) (rest : List Span), r.status = 2#4 → r.spans = x :: rest →
     mayConsume x r.bound →
     let r' := consumed r x rest
     le32 r.threshold (sub32 one32 r'.front) = true →
     ((s.settleRay st n r).stage st).ray n = { r' with status := 3#4, spans := [], walk := none } ∧
     ((r.desc32 9).setWidth 8 = 0#8 → (∀ z ∈ r.sources, z.noticeCls = 0#8) →
       s.settleRay st n r = s.setRay st n { r' with status := 3#4, spans := [], walk := none })))

/-- R276, R286, R287: `raynew` opens a free slot of its own stage with the descriptor it reads and sends its handle to d, or 0 where no
slot is free; `sprd` sends the selected field to d; both mark d empty and issue on, and the value then fills d.

15 R293, R294: the walker takes the pending entry with the smallest key, settles source 0 to its distance and fetches it; a node's
bytes replace it by the children the ray's interval meets.

15 R299, R300: an abort of a context ends its ray that is open or running with status 6 and its list discarded; a reset also frees
it and advances its generation; `trav.sdf` takes a threshold that is finite and not negative, and minus zero with it, for the context of
the stage's partition (log 55). -/
def Obligations.RaysRun : Prop :=
  ((∀ (s : State) (d : XName) (a : Src) (o : Nat), s.img.writable d → d ≠ 0#5 → s.readable a.reg →
     accessCheck (s.img.sourceVal a.reg) needL 0 64 16 s = .ok (.local o, s) → clear s .m o 64 →
     let st := stageOf s.cur.1
     s.travUpdating st = false →
     let w := wordsOf (s.readBytes (ulmAddr s.cur.1 o) 64)
     descFail w = none →
     ∃ t v, exec (.raynew d a) s = .next t ∧ t.img.x = ((s.img.popped a.reg).emptied d).x ∧ t.mem = s.mem ∧
       t.reqs = s.reqs ++ [⟨s.nextId, s.cur.1, s.cur.2, s.curThread.slot.epoch, some .m, .stage st, s.fenceWaits .m,
         .reply (.x d 8 false false) (bytesOfNat 8 v) false⟩] ∧
       (((s.stage st).freeRays = [] ∧ v = 0 ∧ (t.stage st) = (s.stage st)) ∨
         (∃ n, n ∈ (s.stage st).freeRays ∧ let r := (t.stage st).ray n
           v = handleWord st n ((s.stage st).ray n).gen.toNat 0 ∧ r.gen = ((s.stage st).ray n).gen ∧ r.status = 1#4 ∧ r.desc = w ∧
           r.owner = s.cur.1 ∧ r.spans = [] ∧ r.clip = none ∧ r.front = 0x3F800000#32 ∧ r.colour = (0#32, 0#32, 0#32) ∧
           r.consumed = w.getD 3 0#32 ∧ r.overflow = 0#8 ∧ r.walk.isSome = decide (rootOfDesc w ≠ 0) ∧
           (∀ m, m ≠ n → (t.stage st).ray m = (s.stage st).ray m)))) ∧
   (∀ (s : State) (d : XName) (a b : Src) (st n v : Nat), s.img.writable d → d ≠ 0#5 → s.readable a.reg → s.readable b.reg →
     s.fenceWaits .m = [] → names s (s.img.word a.reg) st n 0 →
     let w := (s.img.word b.reg).toNat
     let field := w % 16
     let k := w / 16
     w < 256 → field < 8 → (field < 4 → k = 0) → (field = 4 → k < 8) → sprdWord ((s.stage st).ray n) field k = some v →
     ∃ t, exec (.sprd d a b) s = .next t ∧ t.img.x = ((s.pop2 a.reg b.reg).img.emptied d).x ∧ t.mem = s.mem ∧
       t.reqs = s.reqs ++ [⟨s.nextId, s.cur.1, s.cur.2, s.curThread.slot.epoch, some .m, .stage st, s.fenceWaits .m,
         .reply (.x d 8 false false) (bytesOfNat 8 v) false⟩]) ∧
   (∀ (s : State) (id v : Nat) (r : Req) (d : XName), s.req id = some r → r.cls = some .m → v < 2 ^ 64 →
     r.body = .reply (.x d 8 false false) (bytesOfNat 8 v) false → d ≠ 0#5 → s.present r = true →
     (s.thread r.core r.ctx).slot.inCore r.ctx = true →
     let t := s.thread r.core r.ctx
     exec (.rayUnitReply id) s = .next ((s.drop r.id).setThread r.core r.ctx { t with img := t.img.putWord d (BitVec.ofNat 64 v) }))) ∧
  ((∀ (s : State) (st n : Nat) (w : Walk) (e : Pending) (x : RaySource) (rest : List RaySource),
     let r := (s.stage st).ray n
     r.walk = some w → r.status = 2#4 → w.current = none → w.suspended = none → (s.stage st).halted < 3 →
     s.travUpdating st = false →
     nearest w.pending = some e → r.spans = [] → r.sources = x :: rest → x.registered = true → x.done = false →
     lt32 (match r.clip with | some c => c.1 | none => 0x7F800000#32) e.tn = false →
     exec (.walkerStep st n) s = .next ((s.setRay st n
         { r with sources := { x with settled := max32 x.settled e.tn } :: rest, walk := some { w with pending := w.pending.erase e, current := some e } }))) ∧
   (∀ (s u : State) (st n : Nat) (w : Walk) (e : Pending) (bs : List Byte),
     let r := (s.stage st).ray n
     r.walk = some w → r.status = 2#4 → w.current = some e → w.suspended = none → e.kind = 0 →
     s.walkFetch st n e.addr 128 = .bytes bs u → (u.stage st).ray n = r → badNode e.addr bs = false →
     let hits := (validChildren bs).filterMap (r.childHit w.root bs)
     w.pending.length + hits.length ≤ 64 → w.pending ++ hits ≠ [] → w.evicted = false →
     exec (.walkerFetch st n) s = .next (u.setRay st n
       { r with walk := some { w with pending := w.pending ++ hits, current := none } }))) ∧
  ((∀ (s : State) (st n ctx : Nat) (r : Ray), (s.stage st).rays = [(n, r)] → r.ctx = ctx → r.status = 1#4 ∨ r.status = 2#4 →
     (∃ t, exec (.travAbort st ctx) s = .next t ∧
       (t.stage st).ray n = { r with status := 6#4, spans := [], walk := none } ∧ t.mem = s.mem) ∧
     (∃ t, exec (.travReset st ctx) s = .next t ∧
       (t.stage st).ray n = { Ray.free with gen := if r.gen = 16383#14 then 1#14 else r.gen + 1#14 } ∧ t.mem = s.mem)) ∧
   (∀ (s : State) (st v : Nat), v < 2 ^ 64 →
     let ctx := (s.partOfStage st).getD 0
     let c := (s.stage st).travCtx ctx
     let eps := BitVec.ofNat 32 (v / 2 ^ 32)
     exec (.travSdfWrite st v) s = .next (s.setStage st { s.stage st with
       trav := Assoc.put TravCtx.reset (s.stage st).trav ctx { c with
         eps := if v / 2 ^ 32 < 0x7F800000 ∨ v / 2 ^ 32 = 0x80000000 then eps else c.eps, limit := BitVec.ofNat 16 v } })))

/-- 16 R306: at a handler node `wgemit` sends its record as a message of the node's class to its core, and `wgfin` sends −1 to the
node's producer counter, behind the producer's messages there.

16 R306, R307: the first instruction that reaches an idle raster queue opens it with the descriptor's producers; `wgemit` queues
its 64-byte record, `wgfin` takes one producer off, and both trap "work graph" at a queue opened by another descriptor.

16 R304, R307: a raster unit takes the records of an open queue in order: a malformed one is posted, its record naming the node by the descriptor's word at 0x04 (log 59), and skipped; the samples of a
well-formed one, from where the unit stands, are resolved in order, each where it wins; and a queue with no producer and no record left
bumps its counter by a message from its target's stage interface (26 R378, log 63) and is idle. -/
def Obligations.WorkGraphs : Prop :=
  (∀ (s : State) (a b : Src) (o cls core counter : Nat), s.cur.2 ≠ 16 → s.readable a.reg → s.readable b.reg →
     localOffset s.img.mode (s.img.sourceVal a.reg) true false 0 16 = some o → clear s .m o 16 →
     handlerNode (wordsOf (s.readBytes (ulmAddr s.cur.1 o) 16)) cls core counter → isCore core = true →
     s.grade.noStage.contains (stageOf core) = false → s.samePart s.cur.1 core = true →
     (∀ p n, let r := s.img.sourceVal b.reg
       r.tag = true → Quad.kind r.val = 0#2 → Quad.hasG r.val = false → n = (Quad.length r.val).toNat - (Quad.offset r.val).toNat →
       accessCheck r needL 0 n 16 s = .ok (.local p, s) → clear s .m p n → 16 ≤ n → n ≤ 256 → n % 16 = 0 →
       (s.outbound s.cur.1).length < 8 →
       ∃ t q, exec (.wgemit a b) s = .next t ∧ t.reqs = s.reqs ++ [q] ∧ q.core = s.cur.1 ∧ q.place = .core core ∧
         q.body = .message core ⟨BitVec.ofNat 8 cls, BitVec.ofNat 14 s.cur.1, wordsOf (s.readBytes (ulmAddr s.cur.1 p) n), false⟩ none ∧
         t.mem = s.mem ∧ t.img.x = (s.pop2 a.reg b.reg).img.x) ∧
     (∃ t q, exec (.wgfin a) s = .next t ∧ t.reqs = s.reqs ++ [q] ∧ q.place = .core core ∧
       q.body = .cadd core counter 0xFFFFFFFF#32 ∧
       (∀ m ∈ s.outbound s.cur.1, ∀ y f, m.body = .message core y f → m.id ∈ q.after) ∧ t.mem = s.mem)) ∧
  (∀ (s : State) (a b : Src) (o die unit queue core counter producers : Nat) (ordered : Bool), s.cur.2 ≠ 16 →
     s.readable a.reg → s.readable b.reg →
     localOffset s.img.mode (s.img.sourceVal a.reg) true false 0 16 = some o → clear s .m o 16 →
     let w := wordsOf (s.readBytes (ulmAddr s.cur.1 o) 16)
     rasterNode w ordered die unit queue core counter producers → s.grade.noRaster.contains (die * 4 + unit) = false →
     isCore core = true → s.grade.noStage.contains (stageOf core) = false → s.samePart s.cur.1 core = true →
     let old := (s.die die).queue unit queue
     let q : RasterQueue := if old.opened then old else ⟨w, true, producers, [], 0, s.contextOf s.cur.1, none, none⟩
     (old.opened = true → old.desc ≠ w → exec (.wgfin a) s = .next (s.traps Cause.workGraph 0#64)) ∧
     ((old.opened = true → old.desc = w ∧ old.left ≠ 0) →
       (∀ p, let r := s.img.sourceVal b.reg
         r.tag = true → Quad.kind r.val = 0#2 → Quad.hasG r.val = false →
         (Quad.length r.val).toNat - (Quad.offset r.val).toNat = 64 →
         accessCheck r needL 0 64 16 s = .ok (.local p, s) → clear s .m p 64 → q.records.length < 256 →
         exec (.wgemit a b) s = .next (s.completes ((s.pop2 a.reg b.reg).setRaster die unit queue
           { q with records := q.records ++ [(q.seq, s.cur.1, wordsOf (s.readBytes (ulmAddr s.cur.1 p) 64))], seq := q.seq + 1 }))) ∧
       exec (.wgfin a) s = .next (s.completes ((s.pop a.reg).setRaster die unit queue { q with left := q.left - 1 })))) ∧
  ((∀ (s : State) (die unit queue seq sub : Nat) (w : List (BitVec 32)) (rest : List (Nat × Nat × List (BitVec 32))),
     let q := (s.die die).queue unit queue
     q.records = (seq, sub, w) :: rest → q.opened = true → q.suspended = none → s.haltStep q.node < 3 →
     let d := q.drawing.getD ⟨[], [], 0⟩
     let tlb := TlbId.raster die unit
     (decodeBatch w = none → ∃ t, exec (.rasterRecord die unit queue) s = .next t ∧
       (t.die die).queue unit queue = { q with records := rest, drawing := none } ∧ t.mem = s.mem ∧ t.dram = s.dram ∧
       t.reqs = s.reqs ++ [{ Req.device 0 (.post q.node { tlb.record Cause.rasterRecord ((q.desc.getD 1 0#32).setWidth 64)
         (BitVec.ofNat 64 seq) with time := s.time }) with id := s.nextId }]) ∧
     (∀ (b : Batch) (ix vs : List Byte) (l : List (Nat × Quad)) (n : Nat) (s1 s2 s3 : State), decodeBatch w = some b →
       s.pullBytes tlb q.node (extentAt b.indices (6 * b.nt)) (6 * b.nt) (6 * b.nt) d.indices = (ix, .done, s1) →
       s1.pullBytes tlb q.node (extentAt b.vertices (16 * b.nv)) (16 * b.nv) (16 * b.nv) d.vertices = (vs, .done, s2) →
       batchSamples b vs ix = some l → State.writeSamples tlb q.node (l.drop d.done) s2 = (n, .done, s3) → (s3.die die).queue unit queue = q →
       ∃ t, exec (.rasterRecord die unit queue) s = .next t ∧
         (t.die die).queue unit queue = { q with records := rest, drawing := none } ∧ t.mem = s3.mem ∧ t.dram = s3.dram)) ∧
   (∀ (s u : State) (p : DramAt) (c : Quad), s.openDram p = (.ok (), u) →
     let bs := u.dramBytes p.key 16
     let old : Quad := BitVec.ofNat 128 (little bs)
     (winsSample c old → s.dramModify unitTask p 16 (sampleWrite c) =
       (.ok bs, u.dramStore unitTask p (bytesOfNat 16 (storedSample c).toNat))) ∧
     (¬ winsSample c old → s.dramModify unitTask p 16 (sampleWrite c) = (.ok bs, u))) ∧
   (∀ (s : State) (die unit queue core counter producers : Nat) (ordered : Bool),
     let q := (s.die die).queue unit queue
     q.opened = true → q.left = 0 → q.records = [] → rasterNode q.desc ordered die unit queue core counter producers →
     exec (.rasterQueueComplete die unit queue) s = .next
       (((s.setRaster die unit queue RasterQueue.idle).sent (coreAt (stageOf core) 0 0)).received core |>.addCounter core counter 1#32)))

/-! ## Privileged state -/

/-- R322, R329: `csrr` reads a register that the mode may read, `csrw` writes one it may write and ignores a write to one that is RO,
and `csrx` does both, the old value last. A read of `time` follows the reads that a fence in force orders before it (log 48).

R322, 06 R93: a register that the mode may not access traps "control-register privilege" with its number, an unassigned number is
illegal, and a bank's format stays while a tile of the bank is not empty: nothing is read or written. -/
def Obligations.ControlRegisters : Prop :=
  (∀ (s : State) (d : XName) (a : Src) (n : BitVec 11), s.img.writable d → s.readable a.reg →
     let acc := access s.img.mode n.toNat
     let v := s.img.word a.reg
     let u := s.pop a.reg
     let free := 0x008 ≤ n.toNat → n.toNat ≤ 0x00F → bankFree s (n.toNat - 8) (BitVec.ofNat 4 v.toNat)
     let w := if acc = .rw then csrWritten u n.toNat v else u
     acc = .rw ∨ acc = .ro → (n = 0x002#11 → s.fenceWaits .r = []) →
     exec (.csrr d n) s = .next (s.completes (s.setImg (s.img.putWord d (BitVec.ofNat 64 (csrValue s n.toNat))))) ∧
     ((acc = .rw → free) →
       exec (.csrw a n) s = .next (s.completes w) ∧
       exec (.csrx d a n) s = .next (s.completes (w.setImg (w.img.putWord d (BitVec.ofNat 64 (csrValue s n.toNat))))))) ∧
  (∀ (s : State) (d : XName) (a : Src) (n : BitVec 11), ∀ i : Instr, i = .csrr d n ∨ i = .csrw a n ∨ i = .csrx d a n →
     (access s.img.mode n.toNat = .denied → exec i s = .next (s.traps Cause.csrPrivilege (n.setWidth 64))) ∧
     (access s.img.mode n.toNat = .absent → exec i s = .next (s.traps Cause.illegal s.curWord)) ∧
     (i = .csrw a n → access s.img.mode n.toNat = .rw → 0x008 ≤ n.toNat → n.toNat ≤ 0x00F → s.readable a.reg →
       ¬ bankFree s (n.toNat - 8) (BitVec.ofNat 4 (s.img.word a.reg).toNat) →
       exec i s = .next (s.traps Cause.tileFormat (BitVec.ofNat 64 (n.toNat - 8)))))

/-- R325: trap entry, once x29 has no pending producer: outside class 7 and outside a trap handler the context's trap registers
take the cause, the pc, the address and the status, the mode becomes supervisor, x29 a capability over the context's save area and
the pc the class's vector; otherwise `fw.*` take them, with "double trap" for another cause than class 7's, and firmware runs.
No other register, and no byte of memory, changes. -/
def Obligations.TrapEntry : Prop :=
  ∀ (s : State) (core ctx : Nat) (cause : BitVec 7) (pc : Ulm) (addr : Word) (deferred next : Bool),
    let t := s.thread core ctx
    let r := (s.core core).regs
    let cls := cause.toNat / 16
    let nest := t.img.trap.stat.getLsbD 5
    let stat (next : Bool) : BitVec 8 := BitVec.ofNat 8 ((match t.img.mode with | .user => 0 | .supervisor => 1 | .firmware => 2) +
      (if ctx = 16 then 0x10 else 0) + 0x20 + (if next then 0x40 else 0) + if deferred then 0x80 else 0)
    let u := s.takeTrap core ctx cause pc addr deferred next
    let c := (u.thread core ctx).img
    (t.pendingX 29#5 = true → u = (s.block core ctx .retry).startCount core ctx) ∧
    (t.pendingX 29#5 = false →
      u.mem = s.mem ∧ u.tags = s.tags ∧ c.v = t.img.v ∧ c.m = t.img.m ∧ c.loops = t.img.loops ∧ c.fpCtrl = t.img.fpCtrl ∧
      c.fpFlags = t.img.fpFlags ∧ c.gens = t.img.gens ∧ (∀ j : Fin 32, j ≠ 29 → c.x[j] = t.img.x[j]) ∧
      (∀ k, k ≠ ctx → k < 32 → ctx < 32 → u.thread core k = s.thread core k) ∧
      (cls ≠ 7 → nest = false → c.mode = .supervisor ∧ c.pc = BitVec.ofNat 18 (512 * r.trapVec.toNat + 64 * cls) ∧
        c.trap = ⟨cause, pc, addr, stat next⟩ ∧ (u.core core).regs = r ∧
        (r.trapSave.toNat * 256 + ctx * 256 < 2 ^ 57 → c.x[29] = handlerCap (256 * r.trapSave.toNat + 256 * ctx) 256)) ∧
      (cls = 7 ∨ nest = true → c.mode = .firmware ∧ c.pc = 0x3F000#18 ∧ c.trap = t.img.trap ∧
        (u.core core).regs.fw = ⟨if cls = 7 then cause else Cause.doubleTrap, pc, addr, stat (next && cls == 7)⟩ ∧
        c.x[29] = handlerCap 0x3F800 0x800))

/-- R331: `hcall n` takes the trap "supervisor call" with n as its address and the next bit set; it has issued (29 R416).

R330: `eret` goes back to the saved pc, or past the instruction there where the next bit is set, in the previous mode, and clears
the nest bit; the loop stack and every other register stay. A previous mode above the current one, and user mode, trap.

R328, R332 to R334: the system instructions of supervisor and firmware mode trap "privileged instruction" in a lower mode. -/
def Obligations.TrapsAndReturns : Prop :=
  (∀ (s : State) (n : BitVec 11),
     exec (.hcall n) s = .next (s.raise s.cur.1 s.cur.2 Cause.supervisorCall (n.setWidth 64) true)) ∧
  (∀ s : State,
     let fw := s.img.mode = .firmware
     let r := if fw then (s.core s.cur.1).regs.fw else s.img.trap
     let code (m : Mode) : Nat := match m with | .user => 0 | .supervisor => 1 | .firmware => 2
     let back := if r.stat.getLsbD 6 then s.nextPc s.cur.1 r.pc else r.pc
     (s.img.mode = .user → exec .eret s = .next (s.traps Cause.privileged s.curWord)) ∧
     (s.img.mode ≠ .user → code s.img.mode < r.stat.toNat % 4 → exec .eret s = .next (s.traps Cause.privileged s.curWord)) ∧
     (s.img.mode ≠ .user → r.stat.toNat % 4 ≤ code s.img.mode → back.toNat % 2 = 0 →
       ∃ t, exec .eret s = .next t ∧ t.img.pc = back ∧ code t.img.mode = r.stat.toNat % 4 ∧ t.img.loops = s.img.loops ∧
         t.img.x = s.img.x ∧ t.img.v = s.img.v ∧ t.img.m = s.img.m ∧ t.mem = s.mem ∧ t.tags = s.tags ∧
         t.curThread.slot.status = .ready ∧
         (if fw then t.img.trap = s.img.trap ∧ (t.core s.cur.1).regs.fw = { r with stat := r.stat &&& 0b11011111#8 }
           else t.img.trap = { r with stat := r.stat &&& 0b11011111#8 } ∧ (t.core s.cur.1).regs.fw = (s.core s.cur.1).regs.fw))) ∧
  (∀ (s : State) (d : XName) (a b : Src),
     (s.img.mode = .user → ∀ i : Instr, i = .eret ∨ i = .tlbw a b ∨ i = .tlbi a ∨ i = .tlbp d a ∨ i = .ctxsv a ∨ i = .ctxld a →
       exec i s = .next (s.traps Cause.privileged s.curWord)) ∧
     (s.img.mode ≠ .firmware → exec (.snap d) s = .next (s.traps Cause.privileged s.curWord)))

/-- R331, 03 R23: `wfi` holds a thread until an event, or ends without one; in a handler it traps "blocking in handler". R324: a deferred
cause is taken at a boundary, oldest first, while nest is 0 and no soft error that has been met comes first (24 R340). 03 R24, R326: an activation over its budget traps. 08 R134: a word that is no
instruction is illegal. 24 R350: a core that has held a ready task and issued nothing for 2^28 cycles takes "watchdog", in the
handler's or else the lowest ready slot, and the count starts again (log 47). -/
def Obligations.WaitsAndBoundaries : Prop :=
  (∀ s : State, (s.cur.2 ≠ 16 → exec .wfi s = .next (s.rests s .event)) ∧
    (s.cur.2 = 16 → exec .wfi s = .next (s.traps Cause.blockingInHandler s.curWord))) ∧
  (∀ (s : State) (core ctx : Nat), (s.thread core ctx).slot.status = .blocked → (s.thread core ctx).slot.wait = .event →
    exec (.wfiEndWithoutEvent core ctx) s = .next (s.retireHeld core ctx)) ∧
  (∀ s : State, exec .illegalInstruction s = .next (s.traps Cause.illegal s.curWord)) ∧
  (∀ (s : State) (core ctx : Nat) (d : Deferred) (rest : List Deferred),
    let t := s.thread core ctx
    t.slot.deferred = d :: rest → t.img.trap.stat.getLsbD 5 = false → t.slot.held = false → t.pendingX 29#5 = false →
    ctx = 16 ∨ t.slot.resident = true → t.slot.atBoundary = true → t.slot.soft = none →
    exec (.deferredTrap core ctx) s = .next ((s.setThread core ctx { t with slot := { t.slot with deferred := rest } }).takeTrap
      core ctx d.cause t.img.pc d.addr true false)) ∧
  (∀ (s : State) (core : Nat) (a : Activation),
    let c := s.core core
    let t := s.thread core 16
    c.activation = some a → a.begun = true → a.paused = false → c.regs.hndBudget ≠ 0#32 →
    c.regs.hndBudget.toNat < a.spent + (s.cycle - a.since) →
    t.slot.atBoundary = true → t.slot.soft = none →
    exec (.handlerBudget core) s =
      .next (s.takeTrap core 16 Cause.handlerBudget t.img.pc (c.regs.hndBudget.setWidth 64) false false)) ∧
  (∀ (s : State) (core k : Nat),
    let t := s.thread core k
    s.readyTask core = some k → k = 16 ∨ t.slot.resident = true → t.pendingX 29#5 = false → (s.core core).regs.lastIssue + 2 ^ 28 ≤ s.cycle →
    ∃ u, exec (.watchdog core) s = .next u ∧ (u.thread core k).img.mode = .firmware ∧
      (u.core core).regs.fw.cause = Cause.watchdog ∧ (u.core core).regs.fw.pc = t.img.pc ∧
      (u.core core).regs.fw.addr = BitVec.ofNat 64 k ∧ (u.core core).regs.lastIssue = s.cycle ∧ u.mem = s.mem)

/-- R31: a resident thread blocked for 256 cycles, or resident for 65,536, is swapped for the ready thread in the wings: its image
stands there, its stream buffers empty. The incoming thread runs from its own image once it has streamed in; a slot held by `ctxsv` or by a
pre-emption does not (23 R333, R335).

R112, R101: while no earlier write of the core's system handler is under way, the write that a scope miss holds is made again at
its address, after the writes that tasks of the core issued before and that can be performed by now (log 48); a later write of the core's tasks
to its bytes suppresses it, and its entry of the publication table is done with the piece. Time does not pass the bound of 4,096
cycles by which such a write is performed, but in a pre-empted partition, whose cycles do not count. -/
def Obligations.ContextsSwapped : Prop :=
  (∀ (s : State) (core k into : Nat), k < 16 → into < 16 → core < 16384 →
     let t := s.thread core k
     let v := (s.thread core into).slot
     let alone := ∀ j, j < 16 → j ≠ k → (s.thread core j).slot.resident = false
     let next := v.status = .ready ∧ v.resident = false ∧ s.slotHeld core into = false ∧
       ∀ j, j < 16 → j ≠ into → (s.thread core j).slot.status ≠ .ready ∨ (s.thread core j).slot.resident = true
     let leaves := t.slot.resident = true ∧ ∀ g : Fin 4, (t.img.gens[g]).append = true → (t.img.gens[g]).pending = []
     let c := { t.img with gens := t.img.gens.map fun g => { g with fetched := [] } }
     (∀ i : Instr, (s.core core).swap = none → alone → next → leaves →
       (i = .blockSwap core ∧ t.slot.status = .blocked ∧ t.slot.since + 256 ≤ s.cycle) ∨
         (i = .quantumSwap core ∧ t.slot.residentAt + 65536 ≤ s.cycle) →
       ∃ u, exec i s = .next u ∧ (u.core core).swap = some ⟨some k, into⟩ ∧ (u.core core).lastIn = into ∧
         (u.thread core k).slot = { t.slot with resident := false } ∧ u.readBytes (imageAddr core k) 1792 = encodeImage c ∧
         (∀ a, a < imageAddr core k ∨ imageAddr core k + 1792 ≤ a → u.readByte a = s.readByte a) ∧
         (∀ j, j ≠ k → j < 32 → u.thread core j = s.thread core j)) ∧
     (∀ out : Option Nat, (s.core core).swap = some ⟨out, into⟩ → v.status ≠ .free → s.slotHeld core into = false → v.resident = false →
       ∃ u, exec (.slotSwapComplete core) s = .next u ∧ (u.core core).swap = none ∧ u.mem = s.mem ∧ u.tags = s.tags ∧
         (u.thread core into).img =
           { decodeImage s (imageAddr core into) with windowed := (s.thread core into).img.windowed } ∧
         (u.thread core into).slot = { v with resident := true, residentAt := s.cycle, since := s.cycle } ∧
         (∀ j, j ≠ into → j < 32 → u.thread core j = s.thread core j))) ∧
  ((∀ (s : State) (r : Req) (addr : Nat) (bs : List Byte) (tag fw : Bool) (e : Pub) (p : PubPiece),
     s.req r.id = some r → r.body = .scopeMiss addr (bs.map some) tag e.id fw →
     (∀ q ∈ s.reqs, q.core = r.core → q.ctx = 17 → q.body.isWrite = false) → (s.core r.core).queues.pubs = [e] → e.pieces = [p] →
     p.id = r.id →
     ∃ u, exec (.scopeMiss r.id) s = .next u ∧ u.mem = s.mem ∧ u.tags = s.tags ∧
       (p.later = false → ∃ after, u.req r.id = some { r with after := after, body := .write addr bs tag (some e.id) fw } ∧
         ∀ i, i ∈ after ↔ ∃ q ∈ s.reqs, q.id = i ∧ q.core = r.core ∧ q.ctx ≠ 17 ∧ q.cls = some .w ∧ q.id < r.id ∧
           s.mayRun q = true) ∧
       (p.later = true → u.req r.id = none ∧ (u.core r.core).queues.pubs = [])) ∧
   (∀ (s : State) (n d : Nat) (c : Nat × Core) (e : Pub) (p : PubPiece), c ∈ s.cores → e ∈ c.2.queues.pubs → p ∈ e.pieces →
     p.due = some d → s.preempted c.1 = false → s.passing n ≤ d - s.cycle) ∧
   (∀ (c : Core) (n : Nat), (c.putOff n).queues.pubs.map (fun e => e.pieces.map PubPiece.due) =
     c.queues.pubs.map (fun e => e.pieces.map fun p => p.due.map (· + n))))

/-- R332, 25 R353: `tlbw` installs an entry, for the unit's context, at the index that its second source names or at one that the unit
chooses: the unit's TLB first drops every entry of that context whose page overlaps the new one, and keeps the others; no other TLB
changes. A bad operand traps, and a unit of another partition too. `tlbp` reads what the core's own TLB holds for an address.

R332, 25 R364: `tlbi` drops from the TLBs of its stage and of its die's raster units what its partition holds, all of it or what
maps an address; another context's entries and other TLBs stay. It waits while an atomic of the stage that was translated with such
a page is not performed. -/
def Obligations.TlbInstructions : Prop :=
  ((∀ (s : State) (a b : Src), s.readable a.reg → s.readable b.reg → s.img.mode ≠ .user →
     let e := (s.img.sourceVal a.reg).val
     let w := s.img.word b.reg
     (¬ entryOk e ∨ tlbNamed s.grade w.toNat = none → exec (.tlbw a b) s = .next (s.traps Cause.tlbOperand 0#64)) ∧
     (∀ T, entryOk e → tlbNamed s.grade w.toNat = some T → ¬ unitMine s T →
       exec (.tlbw a b) s = .next (s.traps Cause.partitionBoundary (BitVec.ofNat 64 (w.toNat % 2 ^ 16)))) ∧
     (∀ T c, entryOk e → tlbNamed s.grade w.toNat = some T → unitMine s T → unitContext s c T → rising (s.tlb T) →
       ∃ t k, exec (.tlbw a b) s = .next t ∧ k < 32 ∧ (w.getLsbD 21 = false → k = w.toNat / 2 ^ 16 % 32) ∧ t.mem = s.mem ∧
         (∀ i x, (i, x) ∈ t.tlb T ↔ (i = k ∧ x = ⟨c, e⟩) ∨
           (i ≠ k ∧ (i, x) ∈ s.tlb T ∧ ¬ (x.ctx = c ∧ ∃ va, maps x.bits va ∧ maps e va))) ∧
         ∀ U, unitOk U → U ≠ T → t.tlb U = s.tlb U)) ∧
   (∀ (s : State) (d : XName) (a : Src), s.img.mode ≠ .user → s.img.writable d → s.readable a.reg →
     let va := (s.img.word a.reg).toNat % 2 ^ 57
     let c := (s.partOf s.cur.1).getD 256
     let u := s.pop a.reg
     ((∀ i x, (i, x) ∈ s.tlb (.core s.cur.1) → x.ctx = c → ¬ maps x.bits va) →
       exec (.tlbp d a) s = .next (s.completes (u.setImg (u.img.put d 0#128 false)))) ∧
     (∀ k e, (k, e) ∈ s.tlb (.core s.cur.1) → e.ctx = c → maps e.bits va →
       (∀ i x, (i, x) ∈ s.tlb (.core s.cur.1) → x.ctx = c → maps x.bits va → x = e) →
       exec (.tlbp d a) s = .next (s.completes (u.setImg (u.img.put d e.bits false)))))) ∧
  (∀ (s : State) (a : Src), s.readable a.reg → s.img.mode ≠ .user →
     let w := s.img.word a.reg
     let c := (s.partOf s.cur.1).getD 256
     let st := stageOf s.cur.1
     let va := w.toNat % 2 ^ 57
     let near (T : TlbId) := (∃ k, T = .core k ∧ isCore k = true ∧ stageOf k = st) ∨ T = .copy st ∨ T = .trav st ∨
       ∃ u, u < 4 ∧ T = .raster (st / 40) u
     let inUse := ∃ q ∈ s.reqs, stageOf q.core = st ∧ ∃ x p, q.body = .atomic x ∧ x.phys = some p ∧
       (w.getLsbD 63 = true ∨ x.addr / p.page = va / p.page)
     (w.toNat / 2 ^ 57 % 64 ≠ 0 → exec (.tlbi a) s = .next (s.traps Cause.tlbOperand 0#64)) ∧
     (w.toNat / 2 ^ 57 % 64 = 0 → st < 160 → ∃ u, u.mem = s.mem ∧ u.img = (s.pop a.reg).img ∧
       (∀ T, near T → ∀ i x, (i, x) ∈ u.tlb T ↔ (i, x) ∈ s.tlb T ∧ ¬ (x.ctx = c ∧ (w.getLsbD 63 = true ∨ maps x.bits va))) ∧
       (∀ T, unitOk T → ¬ near T → u.tlb T = s.tlb T) ∧
       (¬ inUse → exec (.tlbi a) s = .next (s.completes u)) ∧
       (inUse → ∃ t, exec (.tlbi a) s = .next t ∧ t.img = s.img ∧ t.curThread.slot.status = .blocked ∧ ∀ T, t.tlb T = u.tlb T)))

/-- R333: `ctxsv` holds a slot once every producer and every appending stream of it is done, its image whole in the wings and now
software's; `ctxld` lets a held slot go again, from an image whose reserved bits are 0. A slot beyond 15, and the issuing one, trap.

R334, 29 R416: `snap` raises the curtain and holds its destination until every present block has latched. While its window of 64
cycles is open, blocks latch, each when a free value has it (log 45); one that misses it latches late, with the values of that moment
(log 45), and a machine check "curtain" is posted. The curtain falls when every block has latched, and d gets its timestamp. -/
def Obligations.HeldSlotsAndCurtain : Prop :=
  (∀ (s : State) (a : Src), s.img.mode ≠ .user → s.readable a.reg →
     let w := s.img.word a.reg
     let k := w.toNat
     let core := s.cur.1
     let t := s.thread core k
     let idle := (∀ r : Fin 32, (t.img.x[r]).full = true) ∧ (∀ r : Fin 16, (t.img.v[r]).full = true) ∧
       ∀ g : Fin 4, (t.img.gens[g]).append = true → (t.img.gens[g]).pending = []
     (16 ≤ k ∨ k = s.cur.2 → ∀ i : Instr, i = .ctxsv a ∨ i = .ctxld a → exec i s = .next (s.traps Cause.contextOperand w)) ∧
     (k < 16 → k ≠ s.cur.2 → s.cur.2 < 32 → s.img.unbound a.reg →
       (t.slot.resident = true → t.slot.saved = false → idle →
         ∃ u, exec (.ctxsv a) s = .next u ∧
           (u.thread core k).slot = { t.slot with resident := false, held := true, saved := true } ∧
           u.readBytes (imageAddr core k) 1792 =
             encodeImage { t.img with gens := t.img.gens.map fun g => { g with fetched := [] } }) ∧
       (t.slot.saved = true → exec (.ctxsv a) s = .next (s.completes (s.pop a.reg))) ∧
       (t.slot.saved = false → (∃ r : Fin 16, ((s.liveImg core k).v[r]).full = false) →
         ∃ u, exec (.ctxsv a) s = .next u ∧ (u.thread core k).slot.held = true ∧ (u.thread core k).img = t.img ∧
           u.img.pc = s.img.pc ∧ u.curThread.slot.status = .blocked) ∧
       (imageFault s (imageAddr core k) = none → t.slot.held = true → t.slot.wait ≠ .over →
         ∃ u, exec (.ctxld a) s = .next u ∧ u.mem = s.mem ∧ (u.thread core k).img = t.img ∧
           (u.thread core k).slot = { t.slot with held := false, saved := false }) ∧
       (∀ off, imageFault s (imageAddr core k) = some off →
         exec (.ctxld a) s = .next (s.traps Cause.contextImage (BitVec.ofNat 64 off))))) ∧
  ((∀ (s : State) (d : XName), s.img.mode = .firmware → s.img.writable d → s.service.curtain = none → d ≠ 0#5 →
     ∃ (t : State) (id : Nat), exec (.snap d) s = .next t ∧ t.service.curtain = some ⟨s.time, s.cycle, s.cur.1, id, []⟩ ∧
       (t.img.x[d.toFin]).full = false ∧ t.mem = s.mem) ∧
   (∀ (s : State) (c : Curtain) (b : Nat), s.service.curtain = some c → b ∉ c.latched → s.grade.hasBlock b = true →
     c.raisedAt + 64 < s.cycle →
     ∃ t r, exec (.curtainTimeout b) s = .next t ∧ t.service.curtain = some { c with latched := b :: c.latched } ∧
       t.service.machineCheck = s.service.machineCheck ++ [r] ∧ r.cause = Cause.curtain ∧ r.time = s.time ∧
       (b < 16384 → r.core = BitVec.ofNat 14 b ∧ (t.core b).regs.snapTime = c.time ∧
         (t.core b).regs.snapIssue = BitVec.ofNat 64 (s.core b).regs.issued)) ∧
   (∀ (s : State) (c : Curtain) (b : Nat), s.service.curtain = some c → b ∉ c.latched → s.grade.hasBlock b = true →
     s.cycle ≤ c.raisedAt + 64 →
     ∃ t now, exec .curtainFall s = .next t ∧ t.service.curtain = some { c with latched := now ++ c.latched } ∧
       t.service.machineCheck = s.service.machineCheck ∧ t.mem = s.mem ∧
       (∀ i ∈ now, i ∉ c.latched ∧ s.grade.hasBlock i = true) ∧
       ∀ k, k < 16384 → if k ∈ now
         then (t.core k).regs.snapTime = c.time ∧ (t.core k).regs.snapIssue = BitVec.ofNat 64 (s.core k).regs.issued
         else t.core k = s.core k) ∧
   (∀ (s : State) (c : Curtain) (r : Req) (d : XName) (bs : List Byte) (tag : Bool), s.service.curtain = some c →
     (∀ b, s.grade.hasBlock b = true → b ∈ c.latched) → s.reqs = [r] → r.id = c.id → r.body = .reply (.x d 8 false false) bs tag →
     let v := (s.thread r.core r.ctx).slot
     ∃ t, exec .curtainFall s = .next t ∧ t.service.curtain = none ∧ t.reqs = [] ∧
       (v.status ≠ .free → v.epoch = r.epoch → v.resident = true → d ≠ 0#5 →
         ((t.thread r.core r.ctx).img.x[d.toFin]) = ⟨c.time.setWidth 128, false, true⟩)))

/-! ## Launch, translation, partitions -/

/-- R205, 26 R367: `launch` takes a free entry of its partition's store with the header, the priority and the arguments as they stand,
and d receives its ticket; with no entry free d receives 0. A tag bit, a capability or a block that breaks a rule traps.

26 R368, 28 R400: over a link that is up a host record enters the store as `launch` does, with the address of its arguments, its tag and its completion; a record
that breaks a rule is posted with its tag and takes no entry.

26 R369, 28 R405: the front end reads an entry's header, then its tables, then its code and data image, and its argument block,
and keeps them. The first field whose rule is broken frees the entry and posts its ticket and the field's offset; what is needed to find
a field right is read before it. The order of the checks is the model's (log 61), and the alignment of the data area comes with the object (log 24). -/
def Obligations.Launches : Prop :=
  (∀ (s : State) (d : XName) (a b : Src) (o : Nat), s.img.writable d → s.readable a.reg → s.readable b.reg →
     let v := s.img.word a.reg
     let cap := s.img.sourceVal b.reg
     let n := (Quad.length cap.val).toNat - (Quad.offset cap.val).toNat
     let p := (s.partOf s.cur.1).getD 256
     let u := s.pop2 a.reg b.reg
     (v.extractLsb' 59 5 ≠ 0#5 → exec (.launch d a b) s = .next (s.traps Cause.messageOperand 0#64)) ∧
     (v.extractLsb' 59 5 = 0#5 → cap.tag = true → Quad.kind cap.val = 0#2 → Quad.hasG cap.val = false → n ≤ 4096 →
       accessCheck cap needL 0 n 1 s = .ok (.local o, s) → clear s .m o n →
       ((∀ i, i < 128 → ((s.part p).store.find i).isSome = true) →
         exec (.launch d a b) s = .next (s.completes (u.setImg (u.img.putWord d 0#64)))) ∧
       ((∃ i, i < 128 ∧ (s.part p).store.find i = none) →
         ∃ t i l, exec (.launch d a b) s = .next t ∧ i < 128 ∧ (s.part p).store.find i = none ∧
           (t.part p).store.find i = some l ∧ l.header = (v.extractLsb' 0 57).toNat ∧ l.priority = (v.extractLsb' 57 2).toNat ∧
           l.args = s.readBytes (ulmAddr s.cur.1 o) n ∧ l.takenAt = s.time ∧ l.hostTag = none ∧
           l.ticket = i + 1 + 256 * ((s.part p).seq % 2 ^ 24) ∧ (t.part p).seq = (s.part p).seq + 1 ∧
           (∀ j, j ≠ i → (t.part p).store.find j = (s.part p).store.find j) ∧
           t.img.x = (u.img.putWord d (BitVec.ofNat 64 l.ticket)).x ∧ t.mem = s.mem))) ∧
  (∀ (s : State) (r : Req) (p q : Nat) (bs : List Byte), r.body = .hostRecord p q bs → s.reqs = [r] →
     s.linkState p 16 = 2#2 → (∃ i, i < 128 ∧ (s.part p).store.find i = none) →
     let w (i : Nat) : Nat := natOfBytes ((bs.drop (8 * i)).take 8)
     let legal := w 0 / 2 ^ 59 = 0 ∧ w 0 % 32 = 0 ∧ w 1 < 2 ^ 57 ∧ w 1 % 8 = 0 ∧ w 2 / 2 ^ 13 % 2 ^ 19 = 0 ∧ w 3 < 2 ^ 57 ∧
       w 3 % 8 = 0
     (legal → ∃ t i l, exec (.hostLaunchRecord r.id) s = .next t ∧ i < 128 ∧ (s.part p).store.find i = none ∧
       (t.part p).store.find i = some l ∧ l.header = w 0 % 2 ^ 57 ∧ l.priority = w 0 / 2 ^ 57 % 4 ∧ l.argVa = some (w 1) ∧
       l.argSize = w 2 % 2 ^ 13 ∧ l.hostTag = some (BitVec.ofNat 32 (w 2 / 2 ^ 32)) ∧ l.completion = w 3 ∧ t.reqs = []) ∧
     (¬ legal → ∃ t e, exec (.hostLaunchRecord r.id) s = .next t ∧ (t.part p).store = (s.part p).store ∧ t.reqs = [e] ∧
       e.body = .post p ⟨Cause.messageOperand, 0x3FFF#14, 2#2, 16#11, s.time,
         BitVec.ofNat 64 (natOfBytes ((bs.drop 20).take 4)), 0#64⟩)) ∧
  (∀ (s : State) (p i : Nat) (l : Launch), i < 128 → (s.part p).store.find i = some l → l.image = none → l.suspended = none →
     l.hostTag = none →
     let go := exec (.headerRead (128 * p + i)) s
     let refused (u : State) (off : Nat) : Prop := ∃ t e, go = .next t ∧ (t.part p).store = (u.part p).store.del i ∧
       t.reqs = u.reqs ++ [e] ∧
       e.body = .post p ⟨Cause.messageOperand, 0x3FFF#14, 2#2, 16#11, u.time, BitVec.ofNat 64 l.ticket, BitVec.ofNat 64 off⟩
     ∀ h u1, s.launchRead p i l l.header 96 = .ok (h, u1) →
       let own := u1.headerRules p l h
       (∀ off, brokenField 0x0C own = some off → refused u1 off) ∧
       (brokenField 0x0C own = none → ∀ t1 u2 t2 u3,
         u1.launchRead p i l (headerAt l.header h 0x0C) (8 * handlerCount h) = .ok (t1, u2) →
         u2.launchRead p i l (headerAt l.header h 0x28) (8 * (regionCount h + presetCount h)) = .ok (t2, u3) →
         let rules := own ++ tableRules h ⟨t1, t2, u3.alignOf h⟩
         (∀ off, brokenField 0x48 rules = some off → refused u3 off) ∧
         (brokenField 0x48 rules = none → ∀ code u4 image u5,
           u3.launchRead p i l (headerAt l.header h 0x08) (codeSize h) = .ok (code, u4) →
           u4.launchRead p i l (headerAt l.header h 0x44) (imageSize h) = .ok (image, u5) →
           (∀ off, brokenField 0x60 (crcRule h code image :: rules) = some off → refused u5 off) ∧
           (brokenField 0x60 (crcRule h code image :: rules) = none →
             let kept (args : List Byte) (u : State) : Prop := ∃ t, go = .next t ∧ t.reqs = u.reqs ∧ (t.part p).store.find i =
               some { l with image := some (h, code ++ image, t1 ++ t2), args := args }
             (l.argVa = none → kept l.args u5) ∧
             (∀ va args u, l.argVa = some va → u5.launchRead p i l va l.argSize = .ok (args, u) → kept args u)))))

/-- 26 R371, 03 R35: a partition whose turn it is places the entry ranked first on cores that are free and serve it, each with the code
from offset 0 on, and a start message goes to each.

03 R35, 02 R21: a start message that finds its slots free starts the kernel's threads at pc 0 in user mode, with the stack, the
argument block, the first core, the core's index and the thread's number in x2 and x4 to x7, and the data area in x31; the first two
stand in the core, the others' images in the wings. That the stack's offset is 0 is the model's choice (log 73).

26 R372, R368, R378: a kernel that the partition's mechanism has found finished is retired: its cores and classes are free, and a
host's launch gets its completion written, the tag with bit 32 clear. Until then, while its detection is in mode 0, nothing happens. -/
def Obligations.Kernels : Prop :=
  (∀ (s : State) (p i : Nat) (l : Launch) (h body tables : List Byte) (cores : List Nat), (s.part p).state = 0#2 →
     (s.part p).store = [(i, l)] → l.suspended = none → l.image = some (h, body, tables) → s.placement p h false = some cores →
     (∀ q ∈ s.parts, (s.placeable q.1).isSome = true → s.turnsTo p ≤ s.turnsTo q.1) →
     body.length = codeSize h + imageSize h →
     let t' : Tables := ⟨tables.take (8 * handlerCount h), tables.drop (8 * handlerCount h), s.alignOf h⟩
     up64 (dataEnd h t') + l.args.length + 16 * stackSize h ≤ 0x38000 →
     ∃ t, exec (.kernelPlacement p) s = .next t ∧ (t.part p).store = [] ∧ t.service.served = p ∧
       (∀ c ∈ cores, s.freeCore c = true ∧ (s.part p).stages.contains (stageOf c) = true ∧ s.serves (stageOf c) h = true) ∧
       (∀ c ∈ cores, (t.core c).kernel = some s.nextId ∧ (t.core c).fetch = none) ∧
       (∀ c ∈ cores, ∀ j, j < codeSize h → t.readByte (ulmAddr c j) = body.getD j 0#8) ∧
       (∃ kn, t.kernels.find s.nextId = some kn ∧ kn.cores = cores ∧ kn.threads = (h.getD 0x14 0#8).toNat ∧
         kn.stack = stackSize h ∧ kn.first = cores.headD 0 ∧ kn.argOff % 64 = 0 ∧ up64 (dataEnd h t') ≤ kn.argOff ∧
         kn.argOff + l.args.length + 16 * stackSize h ≤ 0x38000) ∧
       (∃ new, t.reqs = s.reqs ++ new ∧
         new.map Req.body = cores.zipIdx.map fun e => .start e.1 s.nextId e.2)) ∧
  (∀ (s : State) (id core k index : Nat) (r : Req) (kn : Kernel), s.req id = some r → r.body = .start core k index →
     s.kernels.find k = some kn → 0 < kn.threads → kn.threads ≤ 16 → s.residents core = 0 →
     (∀ n, n < 16 → s.slotHeld core n = false ∧ (s.thread core n).slot.status = .free) →
     16 * kn.stack ≤ 0x38000 →
     ∃ t, exec (.startMessage id) s = .next t ∧ (kn.threads ≤ 2 → t.mem = s.mem) ∧
     (∀ a, (∀ n, 2 ≤ n → n < kn.threads → a < imageAddr core n ∨ imageAddr core n + (encodeImage (t.thread core n).img).length ≤ a) →
       t.readByte a = s.readByte a) ∧
     ∀ n, n < kn.threads →
       let u := t.thread core n
       u.slot.status = .ready ∧ u.slot.resident = decide (n < 2) ∧ u.slot.kernel = some k ∧ u.img.pc = 0#18 ∧ u.img.mode = .user ∧
       u.img.x[2] = handlerCap (0x38000 - (n + 1) * kn.stack) kn.stack ∧
       u.img.x[4].tag = true ∧ Quad.base u.img.x[4].val = BitVec.ofNat 57 kn.argOff ∧
       Quad.length u.img.x[4].val = BitVec.ofNat 31 kn.argSize ∧ Quad.perms u.img.x[4].val = 0b100000#6 ∧
       u.img.x[5] = ⟨BitVec.ofNat 128 kn.first, false, true⟩ ∧ u.img.x[6] = ⟨BitVec.ofNat 128 index, false, true⟩ ∧
       u.img.x[7] = ⟨BitVec.ofNat 128 n, false, true⟩ ∧ u.img.x[31].tag = true ∧
       Quad.base u.img.x[31].val = BitVec.ofNat 57 kn.dataBase ∧ Quad.length u.img.x[31].val = BitVec.ofNat 31 kn.dataSize ∧
       (2 ≤ n → ∀ j b, (encodeImage u.img)[j]? = some b → t.readByte (imageAddr core n + j) = b)) ∧
  ((∀ (s : State) (k : Nat) (kn : Kernel), s.kernels.find k = some kn →
     (s.retires k kn = false → kn.mode = false → exec (.kernelRetire k) s = .next s) ∧
     (s.retires k kn = true → ∃ t, exec (.kernelRetire k) s = .next t ∧ t.kernels = s.kernels.del k ∧ t.mem = s.mem ∧
       (∀ c ∈ kn.cores, (t.core c).kernel = none ∧ ∀ n ∈ kn.classes, (t.core c).bindings.find n = none) ∧
       (∀ tag, kn.hostTag = some tag → kn.completion ≠ 0 → ∃ r, t.reqs = s.reqs ++ [r] ∧
         r.body = .completion kn.part kn.completion (tag.setWidth 64) none) ∧
       (kn.hostTag = none ∨ kn.completion = 0 → t.reqs = s.reqs))) ∧
   (∀ (s u : State) (r : Req) (p addr : Nat) (v : Word) (d : DramAt), s.kernels.find r.id = none → s.reqs = [r] →
     r.body = .completion p addr v none → s.look (.copy ((s.part p).stages.headD 0)) p addr 2#3 = .hit d →
     s.dramWrite unitTask d (bytesOfNat 8 v.toNat) = (.ok (), u) →
     ∃ t, exec (.kernelRetire r.id) s = .next t ∧ t.reqs = [] ∧ t.dram = u.dram))

/-- R356, R363: a miss that nothing answers for 2^26 cycles is given up: a record is posted that names the TLB, and an atomic that
waits on the miss traps, but not one that waits for the pager's wake; before that nothing happens.

R359: a fault at a router joins the entry of its context and page; else, while fewer than 32 stand there, it makes one and climbs to
the next router, along the row first, then along the column; at the root it becomes a pager record. R360, R362: the pager's wake goes
out on every port the entry names, to the agents that entered there, and the entry is freed.

R362, R363, R366: a wake at a core restarts every atomic that waits on the page, which looks its page up again, or traps "page
fault" where the pager denies the page; the fault entries of the page leave the TLB first. Where nothing waits on the page, or the
partition is saved, or its save is under way, that is all.

24 R342, 28 R396: a record of the error queue, or of the pager queue, is written at its producer index, which advances; a full error
queue counts it as dropped, and a full pager queue keeps it waiting. -/
def Obligations.FaultsClimb : Prop :=
  (∀ (s : State) (r : Req) (tlb : TlbId) (part page va since : Nat), r.body = .miss tlb part page va since → s.reqs = [r] →
     let record (core : BitVec 14) (agent : BitVec 2) (unit : BitVec 11) (who : Word) : Body :=
       .post part ⟨Cause.translationTimeout, core, agent, unit, s.time, BitVec.ofNat 64 va, who⟩
     (s.cycle < since + 2 ^ 26 → exec (.translationTimeout r.id) s = .next s) ∧
     (∀ st, tlb = .trav st → (s.stage st).rays = [] → since + 2 ^ 26 ≤ s.cycle →
       exec (.translationTimeout r.id) s = .next ((s.drop r.id).push (Req.device 0
         (record 0x3FFF#14 1#2 (engineName st 5) (BitVec.ofNat 64 (2 ^ 30 + (engineName st 5).toNat)))))) ∧
     (∀ core k w, tlb = .core core → core < 16384 → (s.core core).queues.dq = [] → k < 17 → (s.thread core k).slot.status = .blocked →
       (s.thread core k).slot.wait = .miss w → w / 65536 = page → k = 16 ∨ (s.thread core k).slot.resident = true →
       (s.thread core k).pendingX 29#5 = false → (∀ j, j < 17 → j ≠ k → (s.thread core j).slot.status ≠ .blocked) →
       since + 2 ^ 26 ≤ s.cycle →
       exec (.translationTimeout r.id) s = .next (((s.drop r.id).takeTrap core k Cause.translationTimeout (s.thread core k).img.pc
         (BitVec.ofNat 64 w) false false).push (Req.device 0
           (record (BitVec.ofNat 14 core) 0#2 0#11 (BitVec.ofNat 64 core))))) ∧
     (∀ core, tlb = .core core → core < 16384 → (s.core core).queues.dq = [] →
       (∀ j, j < 17 → ∀ w, (s.thread core j).slot.status = .blocked → (s.thread core j).slot.wait = .miss w → w / 65536 ≠ page) →
       since + 2 ^ 26 ≤ s.cycle →
       exec (.translationTimeout r.id) s = .next ((s.drop r.id).push (Req.device 0
         (record (BitVec.ofNat 14 core) 0#2 0#11 (BitVec.ofNat 64 core)))))) ∧
  ((∀ (s : State) (q : Req) (router port ctx page : Nat) (r : CauseRecord) (a : Agent), q.body = .fault router port ctx page r a →
     s.reqs = [q] → port < 5 →
     let root := s.rootOf ctx
     let routes := (s.core router).routes
     let own := if port = 4 then [a] else []
     let fresh : RouterEntry := ⟨ctx, page, BitVec.ofNat 5 (2 ^ port), own⟩
     let none' := ∀ e ∈ routes, e.ctx ≠ ctx ∨ e.page ≠ page
     (∀ e, routes = [e] → e.ctx = ctx → e.page = page → ∃ t, exec (.faultClimb q.id) s = .next t ∧ t.reqs = [] ∧
       (t.core router).routes = [{ e with mask := e.mask ||| BitVec.ofNat 5 (2 ^ port), agents := e.agents ++ own }]) ∧
     (none' → routes.length < 32 → ∃ t x, exec (.faultClimb q.id) s = .next t ∧ t.reqs = [x] ∧
       (t.core router).routes = routes ++ [fresh] ∧
       (router = root → x.body = .pagerPost ctx { r with time := s.time } false) ∧
       (router % 128 > root % 128 → x.body = .fault (router - 1) 1 ctx page r a) ∧
       (router % 128 < root % 128 → x.body = .fault (router + 1) 0 ctx page r a) ∧
       (router < 16384 → root < 16384 → router % 128 = root % 128 → router / 128 > root / 128 →
         x.body = .fault (router - 128) 3 ctx page r a) ∧
       (router < 16384 → root < 16384 → router % 128 = root % 128 → router / 128 < root / 128 →
         x.body = .fault (router + 128) 2 ctx page r a)) ∧
     (none' → routes.length = 32 → exec (.faultClimb q.id) s = .next s)) ∧
   (∀ (s : State) (p page deny : Nat), (s.core (s.rootOf p)).routes ≠ [] →
     (∀ e ∈ (s.core (s.rootOf p)).routes, e.ctx = p ∧ e.page = page) →
     exec (.pagerWake p p page deny) s =
       .next (s.push (Req.device (s.rootOf p) (.routerWake (s.rootOf p) p page (deny != 0))))) ∧
   (∀ (s : State) (q : Req) (router ctx page : Nat) (deny : Bool) (e : RouterEntry), q.body = .routerWake router ctx page deny →
     s.reqs = [q] → (s.core router).routes = [e] → e.ctx = ctx → e.page = page →
     ∃ t, exec (.routerWake q.id) s = .next t ∧ (t.core router).routes = [] ∧
       t.reqs.map Req.body =
         ([(0, router - 1), (1, router + 1), (2, router - 128), (3, router + 128)].filter fun x => e.mask.getLsbD x.1).map
           (fun x => .routerWake x.2 ctx page deny) ++ e.agents.map fun a => .agentWake a ctx page deny)) ∧
  (∀ (s : State) (r : Req) (core k part page : Nat) (deny : Bool), r.body = .agentWake (.atomic core k) part page deny → s.reqs = [r] →
     s.contextOf core = part → (s.core core).queues.dq = [] →
     let waits (j : Nat) : Prop := (s.thread core j).slot.status = .blocked ∧
       ∃ va, (s.thread core j).slot.wait = .page va ∧ va / 65536 = page
     let saved : Bool := (s.part part).state.getLsbD 1 || (s.stage ((s.part part).stages.headD 0)).halted == 5
     (((∀ j, j < 17 → ¬ waits j) ∨ saved = true) → ∃ u, exec (.agentWake r.id) s = .next u ∧ u.threads = s.threads ∧ u.reqs = [] ∧
       u.mem = s.mem ∧ ∀ e, s.tlb (.core core) = [e] → u.tlb (.core core) =
           if e.2.ctx = part ∧ e.2.bits.getLsbD 108 = true ∧ e.2.covers (page * 65536) = true then [] else [e]) ∧
     (saved = false → deny = false → ∃ u, exec (.agentWake r.id) s = .next u ∧ u.reqs = [] ∧ u.mem = s.mem ∧ ∀ j, j < 17 →
       (waits j → u.thread core j =
         { s.thread core j with slot := { (s.thread core j).slot with status := .ready, wait := .retry } }) ∧
       (¬ waits j → u.thread core j = s.thread core j)) ∧
     (saved = false → deny = true → ∀ n va, n < 17 → (s.thread core n).slot.status = .blocked → (s.thread core n).slot.wait = .page va →
       va / 65536 = page → (∀ j, j < 17 → j ≠ n → ¬ waits j) → n = 16 ∨ (s.thread core n).slot.resident = true →
       (s.thread core n).pendingX 29#5 = false →
       ∃ u, exec (.agentWake r.id) s = .next u ∧ u.reqs = [] ∧ u.mem = s.mem ∧ u.thread core n =
         (s.takeTrap core n Cause.pageFault (s.thread core n).img.pc (BitVec.ofNat 64 va) false false).thread core n)) ∧
  (∀ (s : State) (q : Req) (p : Nat) (r : CauseRecord), s.reqs = [q] →
     let v := s.part p
     let first := v.stages.headD 0
     (q.body = .post p r →
       (ringFull v.errBase v.errPtr = true → ∃ t, exec (.queueRecordWrite q.id) s = .next t ∧ t.reqs = [] ∧
         t.part p = { v with errPtr := ringPtr (Nat.min (ringDropped v.errPtr + 1) 65535) (ringConsumer v.errPtr) (ringProducer v.errPtr) }) ∧
       (∀ d u, ringFull v.errBase v.errPtr = false →
         s.look (.copy first) p (ringSlot v.errBase v.errPtr) 2#3 = .hit d → s.dramWrite unitTask d r.bytes = (.ok (), u) →
         ∃ t, exec (.queueRecordWrite q.id) s = .next t ∧ t.reqs = [] ∧ t.dram = u.dram ∧
           t.part p = { v with errPtr := ringPtr (ringDropped v.errPtr) (ringConsumer v.errPtr) (ringProducer v.errPtr + 1) })) ∧
     (q.body = .pagerPost p r false →
       (ringFull v.pgBase v.pgPtr = true → exec (.pgqWrite q.id) s = .next s) ∧
       (∀ d u, ringFull v.pgBase v.pgPtr = false →
         s.look (.copy first) p (ringSlot v.pgBase v.pgPtr) 2#3 = .hit d → s.dramWrite unitTask d r.bytes = (.ok (), u) →
         ∃ t, exec (.pgqWrite q.id) s = .next t ∧ t.reqs = [] ∧ t.dram = u.dram ∧
           t.part p = { v with pgPtr := ringPtr (ringDropped v.pgPtr) (ringConsumer v.pgPtr) (ringProducer v.pgPtr + 1) })))

/-- R377, R378, 10 R208: when quiescence of a partition is detected, the threads that `quiesce` holds on its cores go on; a partition
that is being pre-empted goes on with that instead. The probe of mode 1 passes an idle interface with its count and its mark, and
starts again where the round has not shown quiescence.

23 R335, R336, 26 R380: command 01 in state 0 makes the partition drain: state and `pre.stat` 1. Once no activation runs, its slots
and engines stop, then its walks and raster units; once the raster units have finished the records in progress a detection begins. Found
quiescent, its resident contexts go to the wings and its state to the save area; when that stands there, the state is 2. An access that the save
cannot make posts 0x2B once, and the save waits (28 R403, log 65).

23 R335, R336, 24 R350: command 10 in state 2 reads the save area back where it is valid: for the same grade and decode tables. Once it
is back the partition runs. An area that is not valid, or that its CRC does not agree with, leaves it in state 2, with "save-area
integrity" posted; that an area of another grade or table is named by index 0 and offset 0 is the model's choice (log 17).

25 R361: the reset of a partition discards what waits on its unanswered pager records: the entries of the router tables, suspended
launches and queue entries, and the threads held on a page; what counts as such is read off the rule (log 66). -/
def Obligations.PartitionsPreempted : Prop :=
  ((∀ (s : State) (p : Nat), ((s.part p).state ≠ 0#2 ∨ s.detects p = false → exec (.quiescenceDetected p) s = .next s) ∧
     ((s.part p).state = 0#2 → s.detects p = true → ∃ t, exec (.quiescenceDetected p) s = .next t ∧ (t.part p).quietSince = none ∧
       (t.part p).probe = { (s.part p).probe with place := 0, sum := 0, black := false } ∧ (t.part p).mode = (s.part p).modeSet ∧
       (∀ c ∈ s.coreList p, ∀ k, k < 16 →
         (s.thread c k).slot.status = .blocked → (s.thread c k).slot.wait = .quiescence → (t.thread c k).slot.status = .ready))) ∧
   (∀ (s : State) (p : Nat), (s.part p).mode = true →
     let q := s.part p
     let c := (s.coreList p).getD q.probe.place 0
     let r := (s.core c).regs
     (q.probe.place < (s.coreList p).length → s.interfaceIdle p c = false → exec (.quiesceProbe p) s = .next s) ∧
     (q.probe.place < (s.coreList p).length → s.interfaceIdle p c = true → exec (.quiesceProbe p) s = .next (s.setPart p { q with
       probe := ⟨q.probe.place + 1, q.probe.sum + r.netCount, q.probe.black || Assoc.get 0 q.probe.seen c != r.netGot,
         Assoc.put 0 q.probe.seen c r.netGot⟩ })) ∧
     (q.probe.place = (s.coreList p).length → 0 < q.probe.place →
       (s.probeHolds p = true → exec (.quiesceProbe p) s = .next s) ∧
       (s.probeHolds p = false → exec (.quiesceProbe p) s = .next (s.setPart p { q with
         mode := q.modeSet, probe := { q.probe with place := 0, sum := 0, black := false } }))))) ∧
  (∀ (s : State) (p : Nat),
     let v := s.part p
     let total := v.stages.length * 0x1800000
     let i := v.saveDone
     let va := (v.saveVa + i) % 2 ^ 57
     let unit : TlbId := .copy (v.stages.getD (i / 0x1800000) 0)
     let halts (t : State) (n : Nat) : Prop := (∀ st ∈ v.stages, (t.stage st).halted = n) ∧ t.threads = s.threads ∧ t.mem = s.mem
     (v.state = 0#2 → v.stages ≠ [] → ∃ t, exec (.preemptCommand p) s = .next t ∧ (t.part p).state = 1#2 ∧ halts t 1 ∧
       (∀ c ∈ s.coreList p, (t.core c).regs.preStat = 1#2)) ∧
     (v.state ≠ 0#2 → exec (.preemptCommand p) s = .next s) ∧
     (v.state = 1#2 → v.saveWait = none →
       (s.haltStep p = 1 → ((∃ c ∈ s.coreList p, (s.core c).activation ≠ none) → exec (.preemptSave p) s = .next s) ∧
         ((∀ c ∈ s.coreList p, (s.core c).activation = none) → ∃ t, exec (.preemptSave p) s = .next t ∧ halts t 2)) ∧
       (s.haltStep p = 2 → ∃ t, exec (.preemptSave p) s = .next t ∧ halts t 3) ∧
       (s.haltStep p = 3 → (s.rastersDone p = false → exec (.preemptSave p) s = .next s) ∧
         (s.rastersDone p = true → ∃ t, exec (.preemptSave p) s = .next t ∧ halts t 4 ∧ (t.part p).quietSince = none ∧
           (t.part p).mode = v.modeSet)) ∧
       (s.haltStep p = 4 → (s.detects p = false → exec (.preemptSave p) s = .next s) ∧
         (s.detects p = true → ∃ t w, exec (.preemptSave p) s = .next t ∧ (∀ st ∈ v.stages, (t.stage st).halted = 5) ∧
           t.service.saved.find p = some w ∧ w.grade = s.grade ∧ w.gens = v.stages.map (fun st => (s.stage st).decGen) ∧
           ∀ c ∈ s.coreList p, ∀ k, k < 16 → (t.thread c k).slot.resident = false)) ∧
       (∀ w d u, s.haltStep p = 5 → s.service.saved.find p = some w → i < total → s.look unit p va 2#3 = .hit d →
         let k := min (min d.run (0x1800000 - i % 0x1800000)) (d.page - d.phys % d.page)
         s.dramWrite unitTask d ((List.range k).map fun j => s.saveByteAt v w.seed (i + j)) = (.ok (), u) → i + k = total →
         ∃ t, exec (.preemptSave p) s = .next t ∧ (t.part p).state = 2#2 ∧ t.dram = u.dram ∧
           ∀ c ∈ s.coreList p, (t.core c).regs.preStat = 2#2) ∧
       (∀ c, s.haltStep p = 5 → i < total → s.look unit p va 2#3 = .cause c → c ≠ Cause.pageFault →
         (v.saveFailed = true → exec (.preemptSave p) s = .next s) ∧
         (v.saveFailed = false → ∃ t e, exec (.preemptSave p) s = .next t ∧ t.part p = { v with saveFailed := true } ∧
           t.reqs = s.reqs ++ [e] ∧
           e.body = .post p ⟨Cause.dramTransfer, 0x3FFF#14, 2#2, 16#11, s.time, BitVec.ofNat 64 va, c.setWidth 64⟩)))) ∧
  (∀ (s : State) (p : Nat) (w : Saved), s.service.saved.find p = some w →
     let v := s.part p
     let total := v.stages.length * 0x1800000
     let i := v.saveDone
     let va := (v.saveVa + i) % 2 ^ 57
     let unit : TlbId := .copy (v.stages.getD (i / 0x1800000) 0)
     let valid : Prop := w.grade = s.grade ∧ w.gens = v.stages.map fun st => (s.stage st).decGen
     let bad (j : Nat) : Prop := ∃ t e, exec (.restoreCommand p) s = .next t ∧ (t.part p).state = 2#2 ∧
         (∀ c ∈ s.coreList p, (t.core c).regs.preStat = 2#2) ∧ e ∈ t.reqs ∧ ∃ time, e.body = .post p ⟨Cause.saveIntegrity, 0x3FFF#14,
           2#2, 16#11, time, BitVec.ofNat 64 (j / 0x1800000), BitVec.ofNat 64 (partOffset (j % 0x1800000))⟩
     (v.state = 2#2 → valid → ∃ t, exec (.restoreCommand p) s = .next t ∧ (t.part p).state = 3#2 ∧ t.mem = s.mem ∧
       ∀ c ∈ s.coreList p, (t.core c).regs.preStat = 3#2) ∧
     (v.state = 2#2 → ¬ valid → bad 0) ∧
     (v.state = 0#2 ∨ v.state = 1#2 → exec (.restoreCommand p) s = .next s) ∧
     (∀ d u bs, v.state = 3#2 → v.saveWait = none → i < total → s.look unit p va 4#3 = .hit d →
       let k := min (min d.run (0x1800000 - i % 0x1800000)) (d.page - d.phys % d.page)
       s.dramRead false d k = (.ok bs, u) → i + k = total →
       (∀ crc, checkBytes w.crc i bs = .ok crc → ∃ t, exec (.restoreCommand p) s = .next t ∧ (t.part p).state = 0#2 ∧
         (∀ c ∈ s.coreList p, (t.core c).regs.preStat = 0#2) ∧ (∀ st ∈ v.stages, (t.stage st).halted = 0) ∧
         t.service.saved.find p = none) ∧
       (∀ j, checkBytes w.crc i bs = .error j → bad j))) ∧
  (∀ (s : State) (p : Nat), (∀ st ∈ (s.part p).stages, (s.stage st).rays = []) →
     ∃ t, exec (.partitionReset p) s = .next t ∧ t.mem = s.mem ∧ t.tags = s.tags ∧
       (∀ c, (t.core c).routes = (s.core c).routes.filter fun e => e.ctx != p) ∧
       (t.part p).store = (s.part p).store.filter (fun e => e.2.suspended.isNone) ∧
       (∀ c ∈ s.coreList p, ∀ e ∈ (t.core c).queues.dq, e.2.suspended = none) ∧
       (∀ c ∈ s.coreList p, ∀ k, k < 17 → ∀ va, (s.thread c k).slot.wait = .page va → (s.thread c k).slot.status = .blocked →
         (t.thread c k).slot.status = .free) ∧
       (∀ r ∈ t.reqs, ∀ q port page rec' a, r.body ≠ .fault q port p page rec' a))

/-! ## Memory controllers, links, starts -/

/-- 04 R58, 06 R93, 00 R5: a supervisor's write to `loop.depth` of 3 is ignored; a write to `bank.fmt` is ignored while a tile that is
not empty lies in the bank; a write to a register of a control block or of a scheduler's window gives it its low bits.

27 R389, R390: a controller writes the bytes it is given and no others; a read changes no byte. R383: where the granule is stored
under a mapping of another granule, interleave or ECC mode, a read may find other bytes in it, or an error that is posted. An access
to a pseudo-channel that is being calibrated waits (29 R415).

27 R391: a refresh takes its credit off a bank's count of activates, down to 0; the two thresholds take values in their ranges and
no others.

27 R385, R386, R389: one data bit in error in a 32-byte granule in full mode is corrected as the granule is read, and the corrected
byte is written back. -/
def Obligations.RegistersAndDram : Prop :=
  ((∀ (s : State) (core ctx v : Nat), ctx = 16 ∨ (s.thread core ctx).slot.resident = true →
     let t := s.thread core ctx
     exec (.loopDepthWrite core ctx v) s = .next (s.setThread core ctx { t with img :=
       { t.img with loops := if v % 4 = 3 then t.img.loops else { t.img.loops with depth := BitVec.ofNat 2 v } } })) ∧
   (∀ (s : State) (core b v : Nat), b < 7 → let c := s.core core
     (bankFree { s with cur := (core, 0) } b (BitVec.ofNat 4 v) → exec (.bankFmtWrite core b v) s =
       .next (s.setCore core { c with bankFmt := Assoc.put 0#4 c.bankFmt b (BitVec.ofNat 4 v) })) ∧
     (¬ bankFree { s with cur := (core, 0) } b (BitVec.ofNat 4 v) → exec (.bankFmtWrite core b v) s = .next s)) ∧
   (∀ (s : State) (core v : Nat), core < 10240 → s.grade.noStage.contains (stageOf core) = false →
     let r := (s.core core).regs
     let at' (n : Nat) : Nat := core * 2 ^ 20 + 0xE0000 + 8 * n
     exec (.registerWrite (at' 0x010) v) s = .next (s.setRegs core { r with hndBudget := BitVec.ofNat 32 v }) ∧
     exec (.registerWrite (at' 0x024) v) s = .next (s.setRegs core { r with trapVec := BitVec.ofNat 9 (v / 512) }) ∧
     exec (.registerWrite (at' 0x025) v) s = .next (s.setRegs core { r with trapSave := BitVec.ofNat 10 (v / 256) }) ∧
     exec (.registerWrite (at' 0x003) v) s = .next s) ∧
   (∀ (s : State) (die row col v : Nat), die < 4 → row < 5 → col < 8 →
     let st := die * 40 + row * 8 + col
     let at' (off : Nat) : Nat := 2 ^ 36 + die * 2 ^ 33 + row * 2 ^ 30 + col * 2 ^ 27 + 6 * 2 ^ 24 + off
     s.grade.noStage.contains st = false →
     exec (.registerWrite (at' 0x00) v) s = .next (s.setStage st { s.stage st with keeper := BitVec.ofNat 15 v }) ∧
     exec (.registerWrite (at' 0x08) v) s = .next (s.setStage st { s.stage st with translation := BitVec.ofNat 23 v }))) ∧
  (∀ (s : State) (addr gran tol : Nat), gran ≤ 4 → s.flips = [] →
     let g := 2 ^ (5 + gran)
     let place := s.controllerPlace addr gran tol
     let foreign := s.foreign place
     (s.calibrating place = true → exec (.dramRead addr gran tol) s = .next s ∧
       ∀ n v, exec (.dramWrite addr gran tol n v) s = .next s) ∧
     (s.calibrating place = false →
     (foreign = false →
       ∃ t, exec (.dramRead addr gran tol) s = .next t ∧ t.dram = s.dram ∧ t.flips = [] ∧ t.mem = s.mem ∧ t.service = s.service) ∧
     (foreign = true → ∃ t, exec (.dramRead addr gran tol) s = .next t ∧ t.mem = s.mem ∧
       (∀ a, a / g ≠ addr / g → t.dramByte a = s.dramByte a) ∧
       (t.service = s.service ∨ t.dram = s.dram ∧ t.service.machineCheck = s.service.machineCheck ++
         [⟨Cause.uncorrectable, 0x3FFF#14, 3#2, 0#11, s.time, BitVec.ofNat 64 addr, BitVec.ofNat 64 gran⟩])) ∧
     (∀ n v, 0 < n → addr % g + n ≤ g → foreign = false ∨ n = g →
       ∃ t, exec (.dramWrite addr gran tol n v) s = .next t ∧ t.flips = [] ∧ t.mem = s.mem ∧ t.service = s.service ∧
         (∀ k, k < n → t.dramByte (addr + k) = BitVec.ofNat 8 (v / 256 ^ k)) ∧
         (∀ a, a < addr ∨ addr + n ≤ a → t.dramByte a = s.dramByte a)))) ∧
  (∀ (s : State) (k v : Nat), let h := s.stack k
     exec (.periodicRefresh k v) s =
       .next (s.setStack k { h with counts := Assoc.put 0 h.counts v (Assoc.get 0 h.counts v - h.credit.toNat) }) ∧
     (16 ≤ v → v ≤ 2047 → exec (.rfmLevelWrite k v) s = .next (s.setStack k { h with level := BitVec.ofNat 12 v })) ∧
     (v < 16 ∨ (2047 < v ∧ v < 4096) → exec (.rfmLevelWrite k v) s = .next s) ∧
     (1 ≤ v → v ≤ h.level.toNat → exec (.rfmCreditWrite k v) s = .next (s.setStack k { h with credit := BitVec.ofNat 12 v })) ∧
     (v = 0 ∨ (h.level.toNat < v ∧ v < 4096) → exec (.rfmCreditWrite k v) s = .next s)) ∧
  (∀ (s : State) (addr f : Nat), s.foreign (s.controllerPlace addr 0 0) = false → s.calibrating (s.controllerPlace addr 0 0) = false →
     s.flips = [f] → addr < 2 ^ 40 → f / 8 / 32 = addr / 32 →
     ∃ t, exec (.dramRead addr 0 0) s = .next t ∧ t.flips = [] ∧ t.service = s.service ∧
       ∀ a, t.dramByte a = Assoc.get 0#8 s.dram a)

/-- 28 R397, R400: a failed flit of a link that is up is counted and resent; a link that is up may retrain, for the count of failures in
a row that brings it is left to the environment (log 67), and it comes back at its full width, a half or a quarter of it, no narrower than 8 lanes of the host link and 2 of a peer port, or goes down and is reported.
A link in another state takes no notice.

28 R398, R400: over a link that is up a peer's access is performed in the frames that firmware grants its port, under the mapping
that the location is stored under (log 67), and refused outside them; else it waits, and so it does while a pseudo-channel that it
needs is calibrated (29 R415).

29 R411, R412: a cold start that passes every step leaves the device reset, its calibration and settings stored, its tier-0 memory
initialised, its images measured and verified, and its partitions as firmware plans them, on the stages that are present; one that
fails at a step posts it, and no image is installed. A warm start keeps tier 0, for images that it has measured before or that verify;
where it may not go on a cold start begins. A shutdown leaves nothing running. That the last of several images for a unit
counts, and that tier 0 reads 0 after step 4, is log 68.

29 R415: the next live update of a present unit, with a verified image where it needs one, drains the unit, one unit at a time; then it
swaps, and then the unit goes on: the image is installed, a decode table on its stage alone and where no placed kernel needs a later one.
Until then that stage issues nothing, and a lane's link is narrower. A pre-emption finds the swap complete. The queue of updates is the
model's (log 69).

29 R412, R417: a quote covers what the rule names, is signed by the key that the identity certifies, and comes with the keys it is
checked by; its layout is the model's (log 27), its signature that of FIPS 205 (log 82). A telemetry record is made for every 250 µs of
time. -/
def Obligations.LinksAndStarts : Prop :=
  (∀ (s : State) (port : Nat), port ≤ 16 → let l := s.link port
     let full := if port = 16 then s.grade.hostLanes else s.grade.peerLanes
     let least := if port = 16 then 8 else 2
     let wide (t : State) (n : Nat) : Prop := least ≤ n ∧
       t.link port = { l with state := 2#2, lanes := BitVec.ofNat 8 n } ∧ t.service = s.service ∧ t.dram = s.dram
     (l.state = 2#2 → exec (.flitReplay port) s = .next (s.setLink port { l with replays := l.replays + 1#32 }) ∧
       exec (.linkRetrain port) s = .next (s.setLink port { l with state := 1#2 })) ∧
     (l.state ≠ 2#2 → exec (.flitReplay port) s = .next s ∧ exec (.linkRetrain port) s = .next s) ∧
     (l.state ≠ 1#2 → exec (.linkRetrainEnd port) s = .next s) ∧
     (l.state = 1#2 → ∃ t, exec (.linkRetrainEnd port) s = .next t ∧
       (wide t full ∨ wide t (full / 2) ∨ wide t (full / 4) ∨
        (t.link port = { l with state := 0#2, lanes := 0#8 } ∧ t.service.machineCheck = s.service.machineCheck ++
          [⟨Cause.linkDown, 0x3FFF#14, 3#2, 0#11, s.time, BitVec.ofNat 64 port, 0#64⟩])))) ∧
  ((∀ (s : State) (port : Nat), (s.link port).state ≠ 2#2 → exec (.peerRequest port) s = .next s) ∧
   (∀ (s : State) (port : Nat) (q : PeerReq) (rest : List PeerReq), Assoc.get [] s.service.peers port = q :: rest →
     s.calibrating (s.peerPlace q.extent.1) = true → exec (.peerRequest port) s = .next s) ∧
   ∀ (s : State) (port : Nat) (q : PeerReq), (s.link port).state = 2#2 → Assoc.get [] s.service.peers port = [q] → s.flips = [] →
     (∀ a, s.foreign (s.peerPlace a) = false) → s.aliases = [] → s.service.update = none →
     let frames := Assoc.get [] s.service.grants port
     let granted (a n : Nat) : Prop := (∃ f ∈ frames, f.1 ≤ a / 65536 ∧ a / 65536 < f.1 + f.2) ∧ 0 < n ∧ a % 32 + n ≤ 32
     let answers := Assoc.get [] s.service.answers port
     ∃ t, exec (.peerRequest port) s = .next t ∧ Assoc.get [] t.service.peers port = [] ∧ t.mem = s.mem ∧
       (∀ a n, q = .read a n →
         (granted a n → t.dram = s.dram ∧ Assoc.get [] t.service.answers port = answers ++ [some (s.dramBytes a n)]) ∧
         (¬ granted a n → t.dram = s.dram ∧ Assoc.get [] t.service.answers port = answers ++ [none])) ∧
       (∀ a bs, q = .write a bs →
         (granted a bs.length → Assoc.get [] t.service.answers port = answers ++ [some []] ∧
           (∀ k, k < bs.length → t.dramByte (a + k) = bs.getD k 0#8) ∧
           ∀ k, k < a ∨ a + bs.length ≤ k → t.dramByte k = s.dramByte k) ∧
         (¬ granted a bs.length → t.dram = s.dram ∧ Assoc.get [] t.service.answers port = answers ++ [none])) ∧
       (∀ a w, q = .atomic a w →
         (granted a w.bytes → Assoc.get [] t.service.answers port = answers ++ [some (s.dramBytes a w.bytes)] ∧
           (∀ new, w.write (s.dramBytes a w.bytes) = some new → ∀ k, k < new.length → t.dramByte (a + k) = new.getD k 0#8) ∧
           (w.write (s.dramBytes a w.bytes) = none → t.dram = s.dram)) ∧
         (¬ granted a w.bytes → t.dram = s.dram ∧ Assoc.get [] t.service.answers port = answers ++ [none]))) ∧
  (∀ s : State, let b := s.service.boot
     let fails := Config.stepFails s.freeIx
     let good (i : Image) : Prop := slhVerify slh128s vendorKey i.bytes i.signature = true
     let reset (t : State) : Prop := t.threads = [] ∧ t.cores = [] ∧ t.mem = [] ∧ t.tags = [] ∧ t.reqs = [] ∧ t.kernels = []
     let stops (t : State) (n : Nat) : Prop := t.parts = [] ∧ t.service.boot.started = false ∧ t.service.machineCheck =
         s.service.machineCheck ++ [⟨Cause.startFailure, 0x3FFF#14, 3#2, 0#11, 0#64, BitVec.ofNat 64 n, 0#64⟩] ∧
       (∀ i ∈ t.service.boot.images, i.installed = false) ∧ (3 ≤ n → t.service.boot.selfRefresh = false)
     let images := (latestImages b.images).map fun i => { i with measured := sha256 i.bytes, installed := true }
     let created (t : State) : Prop := t.parts = b.plan.map (fun e => (e.1, { Partition.absent with
         stages := e.2.stages.filter (fun st => s.grade.stages.contains st), frames := e.2.frames, weights := e.2.weights
         transit := e.2.transit })) ∧
       t.service.boot.started = true ∧ t.service.boot.settings = true ∧ t.service.boot.selfRefresh = false ∧
       t.service.boot.images = images ∧ t.service.boot.stored = images.map (fun i => (i.name, i.measured))
     let cold (t : State) : Prop := created t ∧ (∃ bs, t.service.boot.calibration = some (bs, crc32c bs)) ∧
       ∀ a, a < 2 ^ 64 → t.dramByte a = 0#8
     let passes : Prop := (∀ i ∈ b.images, good i) ∧ ∀ k, 1 ≤ k → k ≤ 7 → k ≠ 2 → fails k = false
     let kept : Prop := b.selfRefresh = true ∧ (∃ bs, b.calibration = some (bs, crc32c bs)) ∧ b.settings = true ∧
       ∀ i ∈ b.images, (i.name, sha256 i.bytes) ∈ b.stored ∨ good i
     (∃ t, exec .coldStart s = .next t ∧ reset t ∧
       (fails 1 = true → stops t 1) ∧
       (fails 1 = false → (∃ i ∈ b.images, ¬ good i) → stops t 2) ∧
       (∀ n, n = 3 ∨ n = 4 ∨ n = 5 ∨ n = 6 ∨ n = 7 → (∀ i ∈ b.images, good i) → (∀ k, 1 ≤ k → k < n → k ≠ 2 → fails k = false) →
         fails n = true → stops t n ∧ (5 ≤ n → ∀ a, a < 2 ^ 64 → t.dramByte a = 0#8)) ∧
       (passes → cold t ∧ t.service.boot.lastStart = 0#2)) ∧
     (kept → ∃ t, exec .warmStart s = .next t ∧ reset t ∧ t.dram = s.dram ∧ t.flips = s.flips ∧ created t ∧
       t.service.boot.calibration = b.calibration ∧ t.service.boot.lastStart = 1#2) ∧
     (¬ kept → passes → ∃ t, exec .warmStart s = .next t ∧ reset t ∧ cold t ∧ t.service.boot.lastStart = 2#2) ∧
     (∃ t, exec .orderlyShutdown s = .next t ∧ reset t ∧ t.parts = [] ∧ t.dram = s.dram ∧ t.service.boot.started = false ∧
       t.service.boot.selfRefresh = true ∧ t.service.boot.calibration = b.calibration ∧
       ∀ i ∈ t.service.boot.images, i.installed = false)) ∧
  (∀ (s : State),
     let kept (t : State) : Prop := t.mem = s.mem ∧ t.threads = s.threads ∧ t.dram = s.dram ∧ t.kernels = s.kernels
     let set (w : Option UnitSwap) : State := { s with service := { s.service with update := w } }
     (∀ u l, s.service.update = none → s.service.updates = u :: l →
       let image : Prop := ∃ i, u.image = some i ∧ slhVerify slh128s vendorKey i.bytes i.signature = true
       let begins : Prop := ∃ t n, exec .liveUpdate s = .next t ∧ t.service.updates = l ∧
         t.service.update = some ⟨u, false, n⟩ ∧ kept t ∧ t.stages = s.stages
       (∀ st, u.unit = .decode st ∨ u.unit = .traversal st → st < 160 → s.grade.noStage.contains st = false → image → begins) ∧
       (u.unit = .translation → image → begins) ∧
       (∀ k h, u.unit = .house k h → k < 12 → h ∈ s.grade.groups.getD k [] → image → begins) ∧
       (∀ k c, u.unit = .calibration k c → k < 12 → c / 16 ∈ s.grade.groups.getD k [] → begins) ∧
       (∀ port, u.unit = .lane port → port ≤ 16 → (s.link port).state = 2#2 →
         let full := s.grade.lanes port
         let n := if full / 2 < (s.link port).lanes.toNat then full / 2 else full / 4
         (s.link port).lanes.toNat ≤ full → n < (s.link port).lanes.toNat → (if port = 16 then 8 else 2) ≤ n → n < 256 →
         begins ∧ ∃ t, exec .liveUpdate s = .next t ∧ t.link port = { s.link port with lanes := BitVec.ofNat 8 n }) ∧
       ((∀ port, u.unit ≠ .lane port) → (∀ k c, u.unit ≠ .calibration k c) → ¬ image →
         exec .liveUpdate s = .next { s with service := { s.service with updates := l } })) ∧
     (∀ w, s.service.update = some w → w.swapping = false → exec .liveUpdate s = .next (set (some { w with swapping := true }))) ∧
     (∀ w i, s.service.update = some w → w.swapping = true → w.update.image = some i →
       ∃ t, exec .liveUpdate s = .next t ∧ kept t ∧ t.service.update = none ∧
         t.service.boot.images = s.service.boot.images.filter (fun j => j.name != i.name) ++
           [{ i with measured := sha256 i.bytes, installed := true }] ∧
         (∀ st, w.update.unit ≠ .decode st → t.stage st = s.stage st) ∧
         ∀ st, w.update.unit = .decode st →
           ((∀ k ∈ s.kernels, (∃ c ∈ k.2.cores, stageOf c = st) → k.2.minGen ≤ i.decGen.toNat) →
             t.stage st = { s.stage st with decGen := i.decGen, decExt := i.decExt }) ∧
           ((∃ k ∈ s.kernels, (∃ c ∈ k.2.cores, stageOf c = st) ∧ i.decGen.toNat < k.2.minGen) → t.stage st = s.stage st)) ∧
     (∀ w port, s.service.update = some w → w.swapping = true → w.update = ⟨.lane port, none⟩ → (s.link port).state = 2#2 →
       exec .liveUpdate s = .next ((set none).setLink port { s.link port with lanes := w.lanes })) ∧
     (∀ w core, s.service.update = some w → w.update.unit = .decode (stageOf core) → s.pick core = none) ∧
     (∀ p, (s.part p).state = 0#2 → (s.part p).stages ≠ [] → ∃ t, exec (.preemptCommand p) s = .next t ∧ t.service.update = none)) ∧
  ((∀ (s : State) (nonce : Nat), ∃ t body, exec (.attestationQuote nonce) s = .next t ∧
     t.service.quotes = s.service.quotes ++ [body ++
       slhSign slh128f (octets 48 Config.quoteSecret) body (octets 16 (Config.quoteRandom s.freeIx)) ++ quoteChain] ∧
     (∃ rest, quoteChain = slhPublic slh128f (octets 48 Config.quoteSecret) ++ rest) ∧
     body = ((s.service.boot.images.filter Image.installed).flatMap Image.measured) ++
       (s.grade.stages.flatMap fun st => bytesOfNat 2 (s.stage st).decGen.toNat) ++
       bytesOfNat 1 s.grade.code.toNat ++ bytesOfNat 32 nonce ++ bytesOfNat 8 s.time.toNat) ∧
   (∀ (s : State) (die : Nat), die < 4 → let d := s.die die
     (d.telAt + 250000 ≤ s.time.toNat → ∃ t rec', exec (.telemetryRecord die) s = .next t ∧
       t.die die = { d with telSeq := d.telSeq + 1#8, telAt := d.telAt + 250000, delayed := 0, heldCycles := 0 } ∧
       t.service.telemetry = s.service.telemetry ++ [rec'] ∧ rec'.length = 32 ∧
       natOfBytes (rec'.take 8) = (d.telAt + 250000) % 2 ^ 64 ∧ natOfBytes ((rec'.drop 18).take 2) = min d.delayed 65535 ∧
       rec'.getD 24 0#8 = BitVec.ofNat 8 die ∧ rec'.getD 25 0#8 = d.telSeq) ∧
     (s.time.toNat < d.telAt + 250000 → exec (.telemetryRecord die) s = .next s)))

end
end

