-- ==== Sys2Proof/Laws/Assoc.lean ====
section
/-!
SUPPORT. Assoc.lean: reading a map after a write, and that every operation keeps the canonical form.
-/

namespace Sys2Proof.Machine

variable {α : Type}

theorem Assoc.get_del_self (d : α) (m : Assoc α) (i : Nat) : Assoc.get d (m.del i) i = d := by
  induction m with
  | nil => rfl
  | cons e m ih =>
    obtain ⟨k, v⟩ := e
    by_cases h : k = i
    · simpa [Assoc.del, h] using ih
    · simpa [Assoc.del, Assoc.get, h] using ih

theorem Assoc.get_del_ne (d : α) (m : Assoc α) {i j : Nat} (h : i ≠ j) : Assoc.get d (m.del i) j = Assoc.get d m j := by
  induction m with
  | nil => rfl
  | cons e m ih =>
    obtain ⟨k, v⟩ := e
    by_cases h' : k = i
    · subst h'; simpa [Assoc.del, Assoc.get, h] using ih
    · simp only [Assoc.del] at ih
      simp [Assoc.del, Assoc.get, h', ih]

/-- Is a key absent from a map? -/
def Assoc.lacks (m : Assoc α) (i : Nat) : Prop := ∀ e ∈ m, e.1 ≠ i

theorem Assoc.lacks_del (m : Assoc α) (i : Nat) : (m.del i).lacks i := by
  intro e h; simp [Assoc.del] at h; exact h.2

theorem Assoc.get_ins_self (d : α) (m : Assoc α) (i : Nat) (v : α) (h : m.lacks i) :
    Assoc.get d (Assoc.ins i v m) i = v := by
  induction m with
  | nil => simp [Assoc.ins, Assoc.get]
  | cons e m ih =>
    obtain ⟨k, w⟩ := e
    have hk : k ≠ i := h (k, w) (by simp)
    have hm : Assoc.lacks m i := fun e he => h e (by simp [he])
    by_cases hl : i < k
    · simp [Assoc.ins, hl, Assoc.get]
    · simp [Assoc.ins, hl, Assoc.get, hk, ih hm]

theorem Assoc.get_ins_ne (d : α) (m : Assoc α) {i j : Nat} (v : α) (h : i ≠ j) :
    Assoc.get d (Assoc.ins i v m) j = Assoc.get d m j := by
  induction m with
  | nil => simp [Assoc.ins, Assoc.get, h]
  | cons e m ih =>
    obtain ⟨k, w⟩ := e
    by_cases hl : i < k
    · simp [Assoc.ins, hl, Assoc.get, h]
    · simp [Assoc.ins, hl, Assoc.get, ih]

@[simp] theorem Assoc.get_set_self (d : α) (m : Assoc α) (i : Nat) (v : α) : Assoc.get d (m.set i v) i = v :=
  Assoc.get_ins_self d _ i v (Assoc.lacks_del m i)

theorem Assoc.get_set_ne (d : α) (m : Assoc α) {i j : Nat} (v : α) (h : i ≠ j) :
    Assoc.get d (m.set i v) j = Assoc.get d m j := by
  rw [Assoc.set, Assoc.get_ins_ne d _ v h, Assoc.get_del_ne d m h]

/-- Reading a map after a write. -/
@[simp] theorem Assoc.get_set (d : α) (m : Assoc α) (i j : Nat) (v : α) :
    Assoc.get d (m.set i v) j = if i = j then v else Assoc.get d m j := by
  split
  · subst_vars; simp
  · rename_i h; exact Assoc.get_set_ne d m v h

/-- The same where the default is not listed. -/
@[simp] theorem Assoc.get_put [DecidableEq α] (d : α) (m : Assoc α) (i j : Nat) (v : α) :
    Assoc.get d (Assoc.put d m i v) j = if i = j then v else Assoc.get d m j := by
  by_cases h : v = d
  · by_cases h' : i = j
    · subst h' h; simp [Assoc.put, Assoc.get_del_self]
    · simp [Assoc.put, h, h', Assoc.get_del_ne]
  · simp [Assoc.put, h]

theorem Assoc.del_ins (m : Assoc α) (i : Nat) (v : α) : (Assoc.ins i v m).del i = m.del i := by
  induction m with
  | nil => simp [Assoc.ins, Assoc.del]
  | cons e m ih =>
    obtain ⟨k, w⟩ := e
    by_cases hl : i < k
    · simp [Assoc.ins, hl, Assoc.del]
    · simp only [Assoc.del] at ih
      by_cases hk : k = i <;> simp [Assoc.ins, hl, Assoc.del, hk, ih]

theorem Assoc.del_del (m : Assoc α) (i : Nat) : (m.del i).del i = m.del i := by simp [Assoc.del]

/-- The later of two writes of one key stands. -/
@[simp] theorem Assoc.set_set (m : Assoc α) (i : Nat) (v w : α) : (m.set i v).set i w = m.set i w := by
  simp [Assoc.set, Assoc.del_ins, Assoc.del_del]

theorem Assoc.mem_ins {m : Assoc α} {i : Nat} {v : α} {e : Nat × α} (h : e ∈ Assoc.ins i v m) : e = (i, v) ∨ e ∈ m := by
  induction m with
  | nil => simpa [Assoc.ins] using h
  | cons f m ih =>
    obtain ⟨k, w⟩ := f
    by_cases hl : i < k
    · simpa [Assoc.ins, hl] using h
    · simp only [Assoc.ins, hl, if_false, List.mem_cons] at h
      rcases h with h | h
      · simp [h]
      · rcases ih h with h | h <;> simp [h]

/-! ## The canonical form -/

variable [DecidableEq α] {d : α}

/-- The canonical form, said of a list's head and tail. -/
theorem Assoc.wf_cons {k : Nat} {v : α} {m : Assoc α} :
    Assoc.wf d ((k, v) :: m) = true ↔ v ≠ d ∧ (∀ e ∈ m, k < e.1) ∧ Assoc.wf d m = true := by
  simp [Assoc.wf, and_assoc]

theorem Assoc.wf_del {m : Assoc α} (i : Nat) (h : Assoc.wf d m = true) : Assoc.wf d (m.del i) = true := by
  induction m with
  | nil => rfl
  | cons e m ih =>
    obtain ⟨k, v⟩ := e
    rw [Assoc.wf_cons] at h
    obtain ⟨hv, hk, hm⟩ := h
    by_cases hi : k = i
    · simpa [Assoc.del, hi] using ih hm
    · have : Assoc.del ((k, v) :: m) i = (k, v) :: Assoc.del m i := by simp [Assoc.del, hi]
      rw [this, Assoc.wf_cons]
      exact ⟨hv, fun e he => hk e (by simp [Assoc.del] at he; exact he.1), ih hm⟩

theorem Assoc.wf_ins {m : Assoc α} {i : Nat} {v : α} (hv : v ≠ d) (hi : m.lacks i) (h : Assoc.wf d m = true) :
    Assoc.wf d (Assoc.ins i v m) = true := by
  induction m with
  | nil => simp [Assoc.ins, Assoc.wf, hv]
  | cons e m ih =>
    obtain ⟨k, w⟩ := e
    have h' := Assoc.wf_cons.1 h
    by_cases hl : i < k
    · simp only [Assoc.ins, hl, if_true]
      refine Assoc.wf_cons.2 ⟨hv, ?_, h⟩
      intro e he
      rcases List.mem_cons.1 he with rfl | he
      · exact hl
      · have := h'.2.1 e he; omega
    · simp only [Assoc.ins, hl, if_false]
      refine Assoc.wf_cons.2 ⟨h'.1, ?_, ih (fun e he => hi e (by simp [he])) h'.2.2⟩
      intro e he
      rcases Assoc.mem_ins he with rfl | he
      · have := hi (k, w) (by simp); simp at this; simp; omega
      · exact h'.2.1 e he

/-- Every write keeps the canonical form. -/
theorem Assoc.wf_put {m : Assoc α} (i : Nat) (v : α) (h : Assoc.wf d m = true) : Assoc.wf d (Assoc.put d m i v) = true := by
  by_cases hv : v = d
  · simpa [Assoc.put, hv] using Assoc.wf_del i h
  · simpa [Assoc.put, hv, Assoc.set] using Assoc.wf_ins hv (Assoc.lacks_del m i) (Assoc.wf_del i h)

end Sys2Proof.Machine
end

