-- ==== Sys2Proof/Laws/State.lean ====
section
/-!
SUPPORT. State.lean: what each update of the state leaves as it was, one lemma per field per update, and what it makes of the
piece it writes.
-/

namespace Sys2Proof.Machine

@[simp] theorem State.setThread_cores (s : State) (core ctx : Nat) (v : Thread) : (s.setThread core ctx v).cores = s.cores := rfl
@[simp] theorem State.setThread_stages (s : State) (core ctx : Nat) (v : Thread) : (s.setThread core ctx v).stages = s.stages := rfl
@[simp] theorem State.setThread_dies (s : State) (core ctx : Nat) (v : Thread) : (s.setThread core ctx v).dies = s.dies := rfl
@[simp] theorem State.setThread_parts (s : State) (core ctx : Nat) (v : Thread) : (s.setThread core ctx v).parts = s.parts := rfl
@[simp] theorem State.setThread_kernels (s : State) (core ctx : Nat) (v : Thread) : (s.setThread core ctx v).kernels = s.kernels := rfl
@[simp] theorem State.setThread_tlbs (s : State) (core ctx : Nat) (v : Thread) : (s.setThread core ctx v).tlbs = s.tlbs := rfl
@[simp] theorem State.setThread_links (s : State) (core ctx : Nat) (v : Thread) : (s.setThread core ctx v).links = s.links := rfl
@[simp] theorem State.setThread_hbm (s : State) (core ctx : Nat) (v : Thread) : (s.setThread core ctx v).hbm = s.hbm := rfl
@[simp] theorem State.setThread_mem (s : State) (core ctx : Nat) (v : Thread) : (s.setThread core ctx v).mem = s.mem := rfl
@[simp] theorem State.setThread_tags (s : State) (core ctx : Nat) (v : Thread) : (s.setThread core ctx v).tags = s.tags := rfl
@[simp] theorem State.setThread_dram (s : State) (core ctx : Nat) (v : Thread) : (s.setThread core ctx v).dram = s.dram := rfl
@[simp] theorem State.setThread_layouts (s : State) (core ctx : Nat) (v : Thread) : (s.setThread core ctx v).layouts = s.layouts := rfl
@[simp] theorem State.setThread_aliases (s : State) (core ctx : Nat) (v : Thread) : (s.setThread core ctx v).aliases = s.aliases := rfl
@[simp] theorem State.setThread_flips (s : State) (core ctx : Nat) (v : Thread) : (s.setThread core ctx v).flips = s.flips := rfl
@[simp] theorem State.setThread_reqs (s : State) (core ctx : Nat) (v : Thread) : (s.setThread core ctx v).reqs = s.reqs := rfl
@[simp] theorem State.setThread_service (s : State) (core ctx : Nat) (v : Thread) : (s.setThread core ctx v).service = s.service := rfl
@[simp] theorem State.setThread_grade (s : State) (core ctx : Nat) (v : Thread) : (s.setThread core ctx v).grade = s.grade := rfl
@[simp] theorem State.setThread_cycle (s : State) (core ctx : Nat) (v : Thread) : (s.setThread core ctx v).cycle = s.cycle := rfl
@[simp] theorem State.setThread_time0 (s : State) (core ctx : Nat) (v : Thread) : (s.setThread core ctx v).time0 = s.time0 := rfl
@[simp] theorem State.setThread_agenda (s : State) (core ctx : Nat) (v : Thread) : (s.setThread core ctx v).agenda = s.agenda := rfl
@[simp] theorem State.setThread_cur (s : State) (core ctx : Nat) (v : Thread) : (s.setThread core ctx v).cur = s.cur := rfl
@[simp] theorem State.setThread_freeIx (s : State) (core ctx : Nat) (v : Thread) : (s.setThread core ctx v).freeIx = s.freeIx := rfl
@[simp] theorem State.setThread_turn (s : State) (core ctx : Nat) (v : Thread) : (s.setThread core ctx v).turn = s.turn := rfl
@[simp] theorem State.setThread_nextId (s : State) (core ctx : Nat) (v : Thread) : (s.setThread core ctx v).nextId = s.nextId := rfl

@[simp] theorem State.setCore_threads (s : State) (core : Nat) (v : Core) : (s.setCore core v).threads = s.threads := rfl
@[simp] theorem State.setCore_stages (s : State) (core : Nat) (v : Core) : (s.setCore core v).stages = s.stages := rfl
@[simp] theorem State.setCore_dies (s : State) (core : Nat) (v : Core) : (s.setCore core v).dies = s.dies := rfl
@[simp] theorem State.setCore_parts (s : State) (core : Nat) (v : Core) : (s.setCore core v).parts = s.parts := rfl
@[simp] theorem State.setCore_kernels (s : State) (core : Nat) (v : Core) : (s.setCore core v).kernels = s.kernels := rfl
@[simp] theorem State.setCore_tlbs (s : State) (core : Nat) (v : Core) : (s.setCore core v).tlbs = s.tlbs := rfl
@[simp] theorem State.setCore_links (s : State) (core : Nat) (v : Core) : (s.setCore core v).links = s.links := rfl
@[simp] theorem State.setCore_hbm (s : State) (core : Nat) (v : Core) : (s.setCore core v).hbm = s.hbm := rfl
@[simp] theorem State.setCore_mem (s : State) (core : Nat) (v : Core) : (s.setCore core v).mem = s.mem := rfl
@[simp] theorem State.setCore_tags (s : State) (core : Nat) (v : Core) : (s.setCore core v).tags = s.tags := rfl
@[simp] theorem State.setCore_dram (s : State) (core : Nat) (v : Core) : (s.setCore core v).dram = s.dram := rfl
@[simp] theorem State.setCore_layouts (s : State) (core : Nat) (v : Core) : (s.setCore core v).layouts = s.layouts := rfl
@[simp] theorem State.setCore_aliases (s : State) (core : Nat) (v : Core) : (s.setCore core v).aliases = s.aliases := rfl
@[simp] theorem State.setCore_flips (s : State) (core : Nat) (v : Core) : (s.setCore core v).flips = s.flips := rfl
@[simp] theorem State.setCore_reqs (s : State) (core : Nat) (v : Core) : (s.setCore core v).reqs = s.reqs := rfl
@[simp] theorem State.setCore_service (s : State) (core : Nat) (v : Core) : (s.setCore core v).service = s.service := rfl
@[simp] theorem State.setCore_grade (s : State) (core : Nat) (v : Core) : (s.setCore core v).grade = s.grade := rfl
@[simp] theorem State.setCore_cycle (s : State) (core : Nat) (v : Core) : (s.setCore core v).cycle = s.cycle := rfl
@[simp] theorem State.setCore_time0 (s : State) (core : Nat) (v : Core) : (s.setCore core v).time0 = s.time0 := rfl
@[simp] theorem State.setCore_agenda (s : State) (core : Nat) (v : Core) : (s.setCore core v).agenda = s.agenda := rfl
@[simp] theorem State.setCore_cur (s : State) (core : Nat) (v : Core) : (s.setCore core v).cur = s.cur := rfl
@[simp] theorem State.setCore_freeIx (s : State) (core : Nat) (v : Core) : (s.setCore core v).freeIx = s.freeIx := rfl
@[simp] theorem State.setCore_turn (s : State) (core : Nat) (v : Core) : (s.setCore core v).turn = s.turn := rfl
@[simp] theorem State.setCore_nextId (s : State) (core : Nat) (v : Core) : (s.setCore core v).nextId = s.nextId := rfl

@[simp] theorem State.setStage_threads (s : State) (st : Nat) (v : Stage) : (s.setStage st v).threads = s.threads := rfl
@[simp] theorem State.setStage_cores (s : State) (st : Nat) (v : Stage) : (s.setStage st v).cores = s.cores := rfl
@[simp] theorem State.setStage_dies (s : State) (st : Nat) (v : Stage) : (s.setStage st v).dies = s.dies := rfl
@[simp] theorem State.setStage_parts (s : State) (st : Nat) (v : Stage) : (s.setStage st v).parts = s.parts := rfl
@[simp] theorem State.setStage_kernels (s : State) (st : Nat) (v : Stage) : (s.setStage st v).kernels = s.kernels := rfl
@[simp] theorem State.setStage_tlbs (s : State) (st : Nat) (v : Stage) : (s.setStage st v).tlbs = s.tlbs := rfl
@[simp] theorem State.setStage_links (s : State) (st : Nat) (v : Stage) : (s.setStage st v).links = s.links := rfl
@[simp] theorem State.setStage_hbm (s : State) (st : Nat) (v : Stage) : (s.setStage st v).hbm = s.hbm := rfl
@[simp] theorem State.setStage_mem (s : State) (st : Nat) (v : Stage) : (s.setStage st v).mem = s.mem := rfl
@[simp] theorem State.setStage_tags (s : State) (st : Nat) (v : Stage) : (s.setStage st v).tags = s.tags := rfl
@[simp] theorem State.setStage_dram (s : State) (st : Nat) (v : Stage) : (s.setStage st v).dram = s.dram := rfl
@[simp] theorem State.setStage_layouts (s : State) (st : Nat) (v : Stage) : (s.setStage st v).layouts = s.layouts := rfl
@[simp] theorem State.setStage_aliases (s : State) (st : Nat) (v : Stage) : (s.setStage st v).aliases = s.aliases := rfl
@[simp] theorem State.setStage_flips (s : State) (st : Nat) (v : Stage) : (s.setStage st v).flips = s.flips := rfl
@[simp] theorem State.setStage_reqs (s : State) (st : Nat) (v : Stage) : (s.setStage st v).reqs = s.reqs := rfl
@[simp] theorem State.setStage_service (s : State) (st : Nat) (v : Stage) : (s.setStage st v).service = s.service := rfl
@[simp] theorem State.setStage_grade (s : State) (st : Nat) (v : Stage) : (s.setStage st v).grade = s.grade := rfl
@[simp] theorem State.setStage_cycle (s : State) (st : Nat) (v : Stage) : (s.setStage st v).cycle = s.cycle := rfl
@[simp] theorem State.setStage_time0 (s : State) (st : Nat) (v : Stage) : (s.setStage st v).time0 = s.time0 := rfl
@[simp] theorem State.setStage_agenda (s : State) (st : Nat) (v : Stage) : (s.setStage st v).agenda = s.agenda := rfl
@[simp] theorem State.setStage_cur (s : State) (st : Nat) (v : Stage) : (s.setStage st v).cur = s.cur := rfl
@[simp] theorem State.setStage_freeIx (s : State) (st : Nat) (v : Stage) : (s.setStage st v).freeIx = s.freeIx := rfl
@[simp] theorem State.setStage_turn (s : State) (st : Nat) (v : Stage) : (s.setStage st v).turn = s.turn := rfl
@[simp] theorem State.setStage_nextId (s : State) (st : Nat) (v : Stage) : (s.setStage st v).nextId = s.nextId := rfl

@[simp] theorem State.setDie_threads (s : State) (d : Nat) (v : Die) : (s.setDie d v).threads = s.threads := rfl
@[simp] theorem State.setDie_cores (s : State) (d : Nat) (v : Die) : (s.setDie d v).cores = s.cores := rfl
@[simp] theorem State.setDie_stages (s : State) (d : Nat) (v : Die) : (s.setDie d v).stages = s.stages := rfl
@[simp] theorem State.setDie_parts (s : State) (d : Nat) (v : Die) : (s.setDie d v).parts = s.parts := rfl
@[simp] theorem State.setDie_kernels (s : State) (d : Nat) (v : Die) : (s.setDie d v).kernels = s.kernels := rfl
@[simp] theorem State.setDie_tlbs (s : State) (d : Nat) (v : Die) : (s.setDie d v).tlbs = s.tlbs := rfl
@[simp] theorem State.setDie_links (s : State) (d : Nat) (v : Die) : (s.setDie d v).links = s.links := rfl
@[simp] theorem State.setDie_hbm (s : State) (d : Nat) (v : Die) : (s.setDie d v).hbm = s.hbm := rfl
@[simp] theorem State.setDie_mem (s : State) (d : Nat) (v : Die) : (s.setDie d v).mem = s.mem := rfl
@[simp] theorem State.setDie_tags (s : State) (d : Nat) (v : Die) : (s.setDie d v).tags = s.tags := rfl
@[simp] theorem State.setDie_dram (s : State) (d : Nat) (v : Die) : (s.setDie d v).dram = s.dram := rfl
@[simp] theorem State.setDie_layouts (s : State) (d : Nat) (v : Die) : (s.setDie d v).layouts = s.layouts := rfl
@[simp] theorem State.setDie_aliases (s : State) (d : Nat) (v : Die) : (s.setDie d v).aliases = s.aliases := rfl
@[simp] theorem State.setDie_flips (s : State) (d : Nat) (v : Die) : (s.setDie d v).flips = s.flips := rfl
@[simp] theorem State.setDie_reqs (s : State) (d : Nat) (v : Die) : (s.setDie d v).reqs = s.reqs := rfl
@[simp] theorem State.setDie_service (s : State) (d : Nat) (v : Die) : (s.setDie d v).service = s.service := rfl
@[simp] theorem State.setDie_grade (s : State) (d : Nat) (v : Die) : (s.setDie d v).grade = s.grade := rfl
@[simp] theorem State.setDie_cycle (s : State) (d : Nat) (v : Die) : (s.setDie d v).cycle = s.cycle := rfl
@[simp] theorem State.setDie_time0 (s : State) (d : Nat) (v : Die) : (s.setDie d v).time0 = s.time0 := rfl
@[simp] theorem State.setDie_agenda (s : State) (d : Nat) (v : Die) : (s.setDie d v).agenda = s.agenda := rfl
@[simp] theorem State.setDie_cur (s : State) (d : Nat) (v : Die) : (s.setDie d v).cur = s.cur := rfl
@[simp] theorem State.setDie_freeIx (s : State) (d : Nat) (v : Die) : (s.setDie d v).freeIx = s.freeIx := rfl
@[simp] theorem State.setDie_turn (s : State) (d : Nat) (v : Die) : (s.setDie d v).turn = s.turn := rfl
@[simp] theorem State.setDie_nextId (s : State) (d : Nat) (v : Die) : (s.setDie d v).nextId = s.nextId := rfl

@[simp] theorem State.setPart_threads (s : State) (p : Nat) (v : Partition) : (s.setPart p v).threads = s.threads := rfl
@[simp] theorem State.setPart_cores (s : State) (p : Nat) (v : Partition) : (s.setPart p v).cores = s.cores := rfl
@[simp] theorem State.setPart_stages (s : State) (p : Nat) (v : Partition) : (s.setPart p v).stages = s.stages := rfl
@[simp] theorem State.setPart_dies (s : State) (p : Nat) (v : Partition) : (s.setPart p v).dies = s.dies := rfl
@[simp] theorem State.setPart_kernels (s : State) (p : Nat) (v : Partition) : (s.setPart p v).kernels = s.kernels := rfl
@[simp] theorem State.setPart_tlbs (s : State) (p : Nat) (v : Partition) : (s.setPart p v).tlbs = s.tlbs := rfl
@[simp] theorem State.setPart_links (s : State) (p : Nat) (v : Partition) : (s.setPart p v).links = s.links := rfl
@[simp] theorem State.setPart_hbm (s : State) (p : Nat) (v : Partition) : (s.setPart p v).hbm = s.hbm := rfl
@[simp] theorem State.setPart_mem (s : State) (p : Nat) (v : Partition) : (s.setPart p v).mem = s.mem := rfl
@[simp] theorem State.setPart_tags (s : State) (p : Nat) (v : Partition) : (s.setPart p v).tags = s.tags := rfl
@[simp] theorem State.setPart_dram (s : State) (p : Nat) (v : Partition) : (s.setPart p v).dram = s.dram := rfl
@[simp] theorem State.setPart_layouts (s : State) (p : Nat) (v : Partition) : (s.setPart p v).layouts = s.layouts := rfl
@[simp] theorem State.setPart_aliases (s : State) (p : Nat) (v : Partition) : (s.setPart p v).aliases = s.aliases := rfl
@[simp] theorem State.setPart_flips (s : State) (p : Nat) (v : Partition) : (s.setPart p v).flips = s.flips := rfl
@[simp] theorem State.setPart_reqs (s : State) (p : Nat) (v : Partition) : (s.setPart p v).reqs = s.reqs := rfl
@[simp] theorem State.setPart_service (s : State) (p : Nat) (v : Partition) : (s.setPart p v).service = s.service := rfl
@[simp] theorem State.setPart_grade (s : State) (p : Nat) (v : Partition) : (s.setPart p v).grade = s.grade := rfl
@[simp] theorem State.setPart_cycle (s : State) (p : Nat) (v : Partition) : (s.setPart p v).cycle = s.cycle := rfl
@[simp] theorem State.setPart_time0 (s : State) (p : Nat) (v : Partition) : (s.setPart p v).time0 = s.time0 := rfl
@[simp] theorem State.setPart_agenda (s : State) (p : Nat) (v : Partition) : (s.setPart p v).agenda = s.agenda := rfl
@[simp] theorem State.setPart_cur (s : State) (p : Nat) (v : Partition) : (s.setPart p v).cur = s.cur := rfl
@[simp] theorem State.setPart_freeIx (s : State) (p : Nat) (v : Partition) : (s.setPart p v).freeIx = s.freeIx := rfl
@[simp] theorem State.setPart_turn (s : State) (p : Nat) (v : Partition) : (s.setPart p v).turn = s.turn := rfl
@[simp] theorem State.setPart_nextId (s : State) (p : Nat) (v : Partition) : (s.setPart p v).nextId = s.nextId := rfl

@[simp] theorem State.setLink_threads (s : State) (p : Nat) (v : Link) : (s.setLink p v).threads = s.threads := rfl
@[simp] theorem State.setLink_cores (s : State) (p : Nat) (v : Link) : (s.setLink p v).cores = s.cores := rfl
@[simp] theorem State.setLink_stages (s : State) (p : Nat) (v : Link) : (s.setLink p v).stages = s.stages := rfl
@[simp] theorem State.setLink_dies (s : State) (p : Nat) (v : Link) : (s.setLink p v).dies = s.dies := rfl
@[simp] theorem State.setLink_parts (s : State) (p : Nat) (v : Link) : (s.setLink p v).parts = s.parts := rfl
@[simp] theorem State.setLink_kernels (s : State) (p : Nat) (v : Link) : (s.setLink p v).kernels = s.kernels := rfl
@[simp] theorem State.setLink_tlbs (s : State) (p : Nat) (v : Link) : (s.setLink p v).tlbs = s.tlbs := rfl
@[simp] theorem State.setLink_hbm (s : State) (p : Nat) (v : Link) : (s.setLink p v).hbm = s.hbm := rfl
@[simp] theorem State.setLink_mem (s : State) (p : Nat) (v : Link) : (s.setLink p v).mem = s.mem := rfl
@[simp] theorem State.setLink_tags (s : State) (p : Nat) (v : Link) : (s.setLink p v).tags = s.tags := rfl
@[simp] theorem State.setLink_dram (s : State) (p : Nat) (v : Link) : (s.setLink p v).dram = s.dram := rfl
@[simp] theorem State.setLink_layouts (s : State) (p : Nat) (v : Link) : (s.setLink p v).layouts = s.layouts := rfl
@[simp] theorem State.setLink_aliases (s : State) (p : Nat) (v : Link) : (s.setLink p v).aliases = s.aliases := rfl
@[simp] theorem State.setLink_flips (s : State) (p : Nat) (v : Link) : (s.setLink p v).flips = s.flips := rfl
@[simp] theorem State.setLink_reqs (s : State) (p : Nat) (v : Link) : (s.setLink p v).reqs = s.reqs := rfl
@[simp] theorem State.setLink_service (s : State) (p : Nat) (v : Link) : (s.setLink p v).service = s.service := rfl
@[simp] theorem State.setLink_grade (s : State) (p : Nat) (v : Link) : (s.setLink p v).grade = s.grade := rfl
@[simp] theorem State.setLink_cycle (s : State) (p : Nat) (v : Link) : (s.setLink p v).cycle = s.cycle := rfl
@[simp] theorem State.setLink_time0 (s : State) (p : Nat) (v : Link) : (s.setLink p v).time0 = s.time0 := rfl
@[simp] theorem State.setLink_agenda (s : State) (p : Nat) (v : Link) : (s.setLink p v).agenda = s.agenda := rfl
@[simp] theorem State.setLink_cur (s : State) (p : Nat) (v : Link) : (s.setLink p v).cur = s.cur := rfl
@[simp] theorem State.setLink_freeIx (s : State) (p : Nat) (v : Link) : (s.setLink p v).freeIx = s.freeIx := rfl
@[simp] theorem State.setLink_turn (s : State) (p : Nat) (v : Link) : (s.setLink p v).turn = s.turn := rfl
@[simp] theorem State.setLink_nextId (s : State) (p : Nat) (v : Link) : (s.setLink p v).nextId = s.nextId := rfl

@[simp] theorem State.setStack_threads (s : State) (k : Nat) (v : Hbm) : (s.setStack k v).threads = s.threads := rfl
@[simp] theorem State.setStack_cores (s : State) (k : Nat) (v : Hbm) : (s.setStack k v).cores = s.cores := rfl
@[simp] theorem State.setStack_stages (s : State) (k : Nat) (v : Hbm) : (s.setStack k v).stages = s.stages := rfl
@[simp] theorem State.setStack_dies (s : State) (k : Nat) (v : Hbm) : (s.setStack k v).dies = s.dies := rfl
@[simp] theorem State.setStack_parts (s : State) (k : Nat) (v : Hbm) : (s.setStack k v).parts = s.parts := rfl
@[simp] theorem State.setStack_kernels (s : State) (k : Nat) (v : Hbm) : (s.setStack k v).kernels = s.kernels := rfl
@[simp] theorem State.setStack_tlbs (s : State) (k : Nat) (v : Hbm) : (s.setStack k v).tlbs = s.tlbs := rfl
@[simp] theorem State.setStack_links (s : State) (k : Nat) (v : Hbm) : (s.setStack k v).links = s.links := rfl
@[simp] theorem State.setStack_mem (s : State) (k : Nat) (v : Hbm) : (s.setStack k v).mem = s.mem := rfl
@[simp] theorem State.setStack_tags (s : State) (k : Nat) (v : Hbm) : (s.setStack k v).tags = s.tags := rfl
@[simp] theorem State.setStack_dram (s : State) (k : Nat) (v : Hbm) : (s.setStack k v).dram = s.dram := rfl
@[simp] theorem State.setStack_layouts (s : State) (k : Nat) (v : Hbm) : (s.setStack k v).layouts = s.layouts := rfl
@[simp] theorem State.setStack_aliases (s : State) (k : Nat) (v : Hbm) : (s.setStack k v).aliases = s.aliases := rfl
@[simp] theorem State.setStack_flips (s : State) (k : Nat) (v : Hbm) : (s.setStack k v).flips = s.flips := rfl
@[simp] theorem State.setStack_reqs (s : State) (k : Nat) (v : Hbm) : (s.setStack k v).reqs = s.reqs := rfl
@[simp] theorem State.setStack_service (s : State) (k : Nat) (v : Hbm) : (s.setStack k v).service = s.service := rfl
@[simp] theorem State.setStack_grade (s : State) (k : Nat) (v : Hbm) : (s.setStack k v).grade = s.grade := rfl
@[simp] theorem State.setStack_cycle (s : State) (k : Nat) (v : Hbm) : (s.setStack k v).cycle = s.cycle := rfl
@[simp] theorem State.setStack_time0 (s : State) (k : Nat) (v : Hbm) : (s.setStack k v).time0 = s.time0 := rfl
@[simp] theorem State.setStack_agenda (s : State) (k : Nat) (v : Hbm) : (s.setStack k v).agenda = s.agenda := rfl
@[simp] theorem State.setStack_cur (s : State) (k : Nat) (v : Hbm) : (s.setStack k v).cur = s.cur := rfl
@[simp] theorem State.setStack_freeIx (s : State) (k : Nat) (v : Hbm) : (s.setStack k v).freeIx = s.freeIx := rfl
@[simp] theorem State.setStack_turn (s : State) (k : Nat) (v : Hbm) : (s.setStack k v).turn = s.turn := rfl
@[simp] theorem State.setStack_nextId (s : State) (k : Nat) (v : Hbm) : (s.setStack k v).nextId = s.nextId := rfl

@[simp] theorem State.writeBytes_threads (s : State) (a : Nat) (bs : List Byte) : (s.writeBytes a bs).threads = s.threads := rfl
@[simp] theorem State.writeBytes_cores (s : State) (a : Nat) (bs : List Byte) : (s.writeBytes a bs).cores = s.cores := rfl
@[simp] theorem State.writeBytes_stages (s : State) (a : Nat) (bs : List Byte) : (s.writeBytes a bs).stages = s.stages := rfl
@[simp] theorem State.writeBytes_dies (s : State) (a : Nat) (bs : List Byte) : (s.writeBytes a bs).dies = s.dies := rfl
@[simp] theorem State.writeBytes_parts (s : State) (a : Nat) (bs : List Byte) : (s.writeBytes a bs).parts = s.parts := rfl
@[simp] theorem State.writeBytes_kernels (s : State) (a : Nat) (bs : List Byte) : (s.writeBytes a bs).kernels = s.kernels := rfl
@[simp] theorem State.writeBytes_tlbs (s : State) (a : Nat) (bs : List Byte) : (s.writeBytes a bs).tlbs = s.tlbs := rfl
@[simp] theorem State.writeBytes_links (s : State) (a : Nat) (bs : List Byte) : (s.writeBytes a bs).links = s.links := rfl
@[simp] theorem State.writeBytes_hbm (s : State) (a : Nat) (bs : List Byte) : (s.writeBytes a bs).hbm = s.hbm := rfl
@[simp] theorem State.writeBytes_dram (s : State) (a : Nat) (bs : List Byte) : (s.writeBytes a bs).dram = s.dram := rfl
@[simp] theorem State.writeBytes_layouts (s : State) (a : Nat) (bs : List Byte) : (s.writeBytes a bs).layouts = s.layouts := rfl
@[simp] theorem State.writeBytes_aliases (s : State) (a : Nat) (bs : List Byte) : (s.writeBytes a bs).aliases = s.aliases := rfl
@[simp] theorem State.writeBytes_flips (s : State) (a : Nat) (bs : List Byte) : (s.writeBytes a bs).flips = s.flips := rfl
@[simp] theorem State.writeBytes_reqs (s : State) (a : Nat) (bs : List Byte) : (s.writeBytes a bs).reqs = s.reqs := rfl
@[simp] theorem State.writeBytes_service (s : State) (a : Nat) (bs : List Byte) : (s.writeBytes a bs).service = s.service := rfl
@[simp] theorem State.writeBytes_grade (s : State) (a : Nat) (bs : List Byte) : (s.writeBytes a bs).grade = s.grade := rfl
@[simp] theorem State.writeBytes_cycle (s : State) (a : Nat) (bs : List Byte) : (s.writeBytes a bs).cycle = s.cycle := rfl
@[simp] theorem State.writeBytes_time0 (s : State) (a : Nat) (bs : List Byte) : (s.writeBytes a bs).time0 = s.time0 := rfl
@[simp] theorem State.writeBytes_agenda (s : State) (a : Nat) (bs : List Byte) : (s.writeBytes a bs).agenda = s.agenda := rfl
@[simp] theorem State.writeBytes_cur (s : State) (a : Nat) (bs : List Byte) : (s.writeBytes a bs).cur = s.cur := rfl
@[simp] theorem State.writeBytes_freeIx (s : State) (a : Nat) (bs : List Byte) : (s.writeBytes a bs).freeIx = s.freeIx := rfl
@[simp] theorem State.writeBytes_turn (s : State) (a : Nat) (bs : List Byte) : (s.writeBytes a bs).turn = s.turn := rfl
@[simp] theorem State.writeBytes_nextId (s : State) (a : Nat) (bs : List Byte) : (s.writeBytes a bs).nextId = s.nextId := rfl

@[simp] theorem State.push_threads (s : State) (r : Req) : (s.push r).threads = s.threads := rfl
@[simp] theorem State.push_cores (s : State) (r : Req) : (s.push r).cores = s.cores := rfl
@[simp] theorem State.push_stages (s : State) (r : Req) : (s.push r).stages = s.stages := rfl
@[simp] theorem State.push_dies (s : State) (r : Req) : (s.push r).dies = s.dies := rfl
@[simp] theorem State.push_parts (s : State) (r : Req) : (s.push r).parts = s.parts := rfl
@[simp] theorem State.push_kernels (s : State) (r : Req) : (s.push r).kernels = s.kernels := rfl
@[simp] theorem State.push_tlbs (s : State) (r : Req) : (s.push r).tlbs = s.tlbs := rfl
@[simp] theorem State.push_links (s : State) (r : Req) : (s.push r).links = s.links := rfl
@[simp] theorem State.push_hbm (s : State) (r : Req) : (s.push r).hbm = s.hbm := rfl
@[simp] theorem State.push_mem (s : State) (r : Req) : (s.push r).mem = s.mem := rfl
@[simp] theorem State.push_tags (s : State) (r : Req) : (s.push r).tags = s.tags := rfl
@[simp] theorem State.push_dram (s : State) (r : Req) : (s.push r).dram = s.dram := rfl
@[simp] theorem State.push_layouts (s : State) (r : Req) : (s.push r).layouts = s.layouts := rfl
@[simp] theorem State.push_aliases (s : State) (r : Req) : (s.push r).aliases = s.aliases := rfl
@[simp] theorem State.push_flips (s : State) (r : Req) : (s.push r).flips = s.flips := rfl
@[simp] theorem State.push_service (s : State) (r : Req) : (s.push r).service = s.service := rfl
@[simp] theorem State.push_grade (s : State) (r : Req) : (s.push r).grade = s.grade := rfl
@[simp] theorem State.push_cycle (s : State) (r : Req) : (s.push r).cycle = s.cycle := rfl
@[simp] theorem State.push_time0 (s : State) (r : Req) : (s.push r).time0 = s.time0 := rfl
@[simp] theorem State.push_agenda (s : State) (r : Req) : (s.push r).agenda = s.agenda := rfl
@[simp] theorem State.push_cur (s : State) (r : Req) : (s.push r).cur = s.cur := rfl
@[simp] theorem State.push_freeIx (s : State) (r : Req) : (s.push r).freeIx = s.freeIx := rfl
@[simp] theorem State.push_turn (s : State) (r : Req) : (s.push r).turn = s.turn := rfl

@[simp] theorem State.drop_threads (s : State) (i : Nat) : (s.drop i).threads = s.threads := rfl
@[simp] theorem State.drop_cores (s : State) (i : Nat) : (s.drop i).cores = s.cores := rfl
@[simp] theorem State.drop_stages (s : State) (i : Nat) : (s.drop i).stages = s.stages := rfl
@[simp] theorem State.drop_dies (s : State) (i : Nat) : (s.drop i).dies = s.dies := rfl
@[simp] theorem State.drop_parts (s : State) (i : Nat) : (s.drop i).parts = s.parts := rfl
@[simp] theorem State.drop_kernels (s : State) (i : Nat) : (s.drop i).kernels = s.kernels := rfl
@[simp] theorem State.drop_tlbs (s : State) (i : Nat) : (s.drop i).tlbs = s.tlbs := rfl
@[simp] theorem State.drop_links (s : State) (i : Nat) : (s.drop i).links = s.links := rfl
@[simp] theorem State.drop_hbm (s : State) (i : Nat) : (s.drop i).hbm = s.hbm := rfl
@[simp] theorem State.drop_mem (s : State) (i : Nat) : (s.drop i).mem = s.mem := rfl
@[simp] theorem State.drop_tags (s : State) (i : Nat) : (s.drop i).tags = s.tags := rfl
@[simp] theorem State.drop_dram (s : State) (i : Nat) : (s.drop i).dram = s.dram := rfl
@[simp] theorem State.drop_layouts (s : State) (i : Nat) : (s.drop i).layouts = s.layouts := rfl
@[simp] theorem State.drop_aliases (s : State) (i : Nat) : (s.drop i).aliases = s.aliases := rfl
@[simp] theorem State.drop_flips (s : State) (i : Nat) : (s.drop i).flips = s.flips := rfl
@[simp] theorem State.drop_service (s : State) (i : Nat) : (s.drop i).service = s.service := rfl
@[simp] theorem State.drop_grade (s : State) (i : Nat) : (s.drop i).grade = s.grade := rfl
@[simp] theorem State.drop_cycle (s : State) (i : Nat) : (s.drop i).cycle = s.cycle := rfl
@[simp] theorem State.drop_time0 (s : State) (i : Nat) : (s.drop i).time0 = s.time0 := rfl
@[simp] theorem State.drop_agenda (s : State) (i : Nat) : (s.drop i).agenda = s.agenda := rfl
@[simp] theorem State.drop_cur (s : State) (i : Nat) : (s.drop i).cur = s.cur := rfl
@[simp] theorem State.drop_freeIx (s : State) (i : Nat) : (s.drop i).freeIx = s.freeIx := rfl
@[simp] theorem State.drop_turn (s : State) (i : Nat) : (s.drop i).turn = s.turn := rfl
@[simp] theorem State.drop_nextId (s : State) (i : Nat) : (s.drop i).nextId = s.nextId := rfl

@[simp] theorem State.replace_threads (s : State) (r : Req) : (s.replace r).threads = s.threads := rfl
@[simp] theorem State.replace_cores (s : State) (r : Req) : (s.replace r).cores = s.cores := rfl
@[simp] theorem State.replace_stages (s : State) (r : Req) : (s.replace r).stages = s.stages := rfl
@[simp] theorem State.replace_dies (s : State) (r : Req) : (s.replace r).dies = s.dies := rfl
@[simp] theorem State.replace_parts (s : State) (r : Req) : (s.replace r).parts = s.parts := rfl
@[simp] theorem State.replace_kernels (s : State) (r : Req) : (s.replace r).kernels = s.kernels := rfl
@[simp] theorem State.replace_tlbs (s : State) (r : Req) : (s.replace r).tlbs = s.tlbs := rfl
@[simp] theorem State.replace_links (s : State) (r : Req) : (s.replace r).links = s.links := rfl
@[simp] theorem State.replace_hbm (s : State) (r : Req) : (s.replace r).hbm = s.hbm := rfl
@[simp] theorem State.replace_mem (s : State) (r : Req) : (s.replace r).mem = s.mem := rfl
@[simp] theorem State.replace_tags (s : State) (r : Req) : (s.replace r).tags = s.tags := rfl
@[simp] theorem State.replace_dram (s : State) (r : Req) : (s.replace r).dram = s.dram := rfl
@[simp] theorem State.replace_layouts (s : State) (r : Req) : (s.replace r).layouts = s.layouts := rfl
@[simp] theorem State.replace_aliases (s : State) (r : Req) : (s.replace r).aliases = s.aliases := rfl
@[simp] theorem State.replace_flips (s : State) (r : Req) : (s.replace r).flips = s.flips := rfl
@[simp] theorem State.replace_service (s : State) (r : Req) : (s.replace r).service = s.service := rfl
@[simp] theorem State.replace_grade (s : State) (r : Req) : (s.replace r).grade = s.grade := rfl
@[simp] theorem State.replace_cycle (s : State) (r : Req) : (s.replace r).cycle = s.cycle := rfl
@[simp] theorem State.replace_time0 (s : State) (r : Req) : (s.replace r).time0 = s.time0 := rfl
@[simp] theorem State.replace_agenda (s : State) (r : Req) : (s.replace r).agenda = s.agenda := rfl
@[simp] theorem State.replace_cur (s : State) (r : Req) : (s.replace r).cur = s.cur := rfl
@[simp] theorem State.replace_freeIx (s : State) (r : Req) : (s.replace r).freeIx = s.freeIx := rfl
@[simp] theorem State.replace_turn (s : State) (r : Req) : (s.replace r).turn = s.turn := rfl
@[simp] theorem State.replace_nextId (s : State) (r : Req) : (s.replace r).nextId = s.nextId := rfl

@[simp] theorem State.setCore_thread (s : State) (core' : Nat) (v : Core) (core ctx : Nat) : (s.setCore core' v).thread core ctx = s.thread core ctx := rfl
@[simp] theorem State.setStage_thread (s : State) (st' : Nat) (v : Stage) (core ctx : Nat) : (s.setStage st' v).thread core ctx = s.thread core ctx := rfl
@[simp] theorem State.setDie_thread (s : State) (d' : Nat) (v : Die) (core ctx : Nat) : (s.setDie d' v).thread core ctx = s.thread core ctx := rfl
@[simp] theorem State.setPart_thread (s : State) (p' : Nat) (v : Partition) (core ctx : Nat) : (s.setPart p' v).thread core ctx = s.thread core ctx := rfl
@[simp] theorem State.setLink_thread (s : State) (p' : Nat) (v : Link) (core ctx : Nat) : (s.setLink p' v).thread core ctx = s.thread core ctx := rfl
@[simp] theorem State.setStack_thread (s : State) (k' : Nat) (v : Hbm) (core ctx : Nat) : (s.setStack k' v).thread core ctx = s.thread core ctx := rfl
@[simp] theorem State.writeBytes_thread (s : State) (a : Nat) (bs : List Byte) (core ctx : Nat) : (s.writeBytes a bs).thread core ctx = s.thread core ctx := rfl
@[simp] theorem State.push_thread (s : State) (r : Req) (core ctx : Nat) : (s.push r).thread core ctx = s.thread core ctx := rfl
@[simp] theorem State.drop_thread (s : State) (i : Nat) (core ctx : Nat) : (s.drop i).thread core ctx = s.thread core ctx := rfl
@[simp] theorem State.replace_thread (s : State) (r : Req) (core ctx : Nat) : (s.replace r).thread core ctx = s.thread core ctx := rfl

@[simp] theorem State.setThread_core (s : State) (core' ctx' : Nat) (v : Thread) (c : Nat) : (s.setThread core' ctx' v).core c = s.core c := rfl
@[simp] theorem State.setStage_core (s : State) (st' : Nat) (v : Stage) (c : Nat) : (s.setStage st' v).core c = s.core c := rfl
@[simp] theorem State.setDie_core (s : State) (d' : Nat) (v : Die) (c : Nat) : (s.setDie d' v).core c = s.core c := rfl
@[simp] theorem State.setPart_core (s : State) (p' : Nat) (v : Partition) (c : Nat) : (s.setPart p' v).core c = s.core c := rfl
@[simp] theorem State.setLink_core (s : State) (p' : Nat) (v : Link) (c : Nat) : (s.setLink p' v).core c = s.core c := rfl
@[simp] theorem State.setStack_core (s : State) (k' : Nat) (v : Hbm) (c : Nat) : (s.setStack k' v).core c = s.core c := rfl
@[simp] theorem State.writeBytes_core (s : State) (a : Nat) (bs : List Byte) (c : Nat) : (s.writeBytes a bs).core c = s.core c := rfl
@[simp] theorem State.push_core (s : State) (r : Req) (c : Nat) : (s.push r).core c = s.core c := rfl
@[simp] theorem State.drop_core (s : State) (i : Nat) (c : Nat) : (s.drop i).core c = s.core c := rfl
@[simp] theorem State.replace_core (s : State) (r : Req) (c : Nat) : (s.replace r).core c = s.core c := rfl

@[simp] theorem State.setThread_stage (s : State) (core' ctx' : Nat) (v : Thread) (st : Nat) : (s.setThread core' ctx' v).stage st = s.stage st := rfl
@[simp] theorem State.setCore_stage (s : State) (core' : Nat) (v : Core) (st : Nat) : (s.setCore core' v).stage st = s.stage st := rfl
@[simp] theorem State.setDie_stage (s : State) (d' : Nat) (v : Die) (st : Nat) : (s.setDie d' v).stage st = s.stage st := rfl
@[simp] theorem State.setPart_stage (s : State) (p' : Nat) (v : Partition) (st : Nat) : (s.setPart p' v).stage st = s.stage st := rfl
@[simp] theorem State.setLink_stage (s : State) (p' : Nat) (v : Link) (st : Nat) : (s.setLink p' v).stage st = s.stage st := rfl
@[simp] theorem State.setStack_stage (s : State) (k' : Nat) (v : Hbm) (st : Nat) : (s.setStack k' v).stage st = s.stage st := rfl
@[simp] theorem State.writeBytes_stage (s : State) (a : Nat) (bs : List Byte) (st : Nat) : (s.writeBytes a bs).stage st = s.stage st := rfl
@[simp] theorem State.push_stage (s : State) (r : Req) (st : Nat) : (s.push r).stage st = s.stage st := rfl
@[simp] theorem State.drop_stage (s : State) (i : Nat) (st : Nat) : (s.drop i).stage st = s.stage st := rfl
@[simp] theorem State.replace_stage (s : State) (r : Req) (st : Nat) : (s.replace r).stage st = s.stage st := rfl

@[simp] theorem State.setThread_die (s : State) (core' ctx' : Nat) (v : Thread) (d : Nat) : (s.setThread core' ctx' v).die d = s.die d := rfl
@[simp] theorem State.setCore_die (s : State) (core' : Nat) (v : Core) (d : Nat) : (s.setCore core' v).die d = s.die d := rfl
@[simp] theorem State.setStage_die (s : State) (st' : Nat) (v : Stage) (d : Nat) : (s.setStage st' v).die d = s.die d := rfl
@[simp] theorem State.setPart_die (s : State) (p' : Nat) (v : Partition) (d : Nat) : (s.setPart p' v).die d = s.die d := rfl
@[simp] theorem State.setLink_die (s : State) (p' : Nat) (v : Link) (d : Nat) : (s.setLink p' v).die d = s.die d := rfl
@[simp] theorem State.setStack_die (s : State) (k' : Nat) (v : Hbm) (d : Nat) : (s.setStack k' v).die d = s.die d := rfl
@[simp] theorem State.writeBytes_die (s : State) (a : Nat) (bs : List Byte) (d : Nat) : (s.writeBytes a bs).die d = s.die d := rfl
@[simp] theorem State.push_die (s : State) (r : Req) (d : Nat) : (s.push r).die d = s.die d := rfl
@[simp] theorem State.drop_die (s : State) (i : Nat) (d : Nat) : (s.drop i).die d = s.die d := rfl
@[simp] theorem State.replace_die (s : State) (r : Req) (d : Nat) : (s.replace r).die d = s.die d := rfl

@[simp] theorem State.setThread_part (s : State) (core' ctx' : Nat) (v : Thread) (p : Nat) : (s.setThread core' ctx' v).part p = s.part p := rfl
@[simp] theorem State.setCore_part (s : State) (core' : Nat) (v : Core) (p : Nat) : (s.setCore core' v).part p = s.part p := rfl
@[simp] theorem State.setStage_part (s : State) (st' : Nat) (v : Stage) (p : Nat) : (s.setStage st' v).part p = s.part p := rfl
@[simp] theorem State.setDie_part (s : State) (d' : Nat) (v : Die) (p : Nat) : (s.setDie d' v).part p = s.part p := rfl
@[simp] theorem State.setLink_part (s : State) (p' : Nat) (v : Link) (p : Nat) : (s.setLink p' v).part p = s.part p := rfl
@[simp] theorem State.setStack_part (s : State) (k' : Nat) (v : Hbm) (p : Nat) : (s.setStack k' v).part p = s.part p := rfl
@[simp] theorem State.writeBytes_part (s : State) (a : Nat) (bs : List Byte) (p : Nat) : (s.writeBytes a bs).part p = s.part p := rfl
@[simp] theorem State.push_part (s : State) (r : Req) (p : Nat) : (s.push r).part p = s.part p := rfl
@[simp] theorem State.drop_part (s : State) (i : Nat) (p : Nat) : (s.drop i).part p = s.part p := rfl
@[simp] theorem State.replace_part (s : State) (r : Req) (p : Nat) : (s.replace r).part p = s.part p := rfl

@[simp] theorem State.setThread_link (s : State) (core' ctx' : Nat) (v : Thread) (p : Nat) : (s.setThread core' ctx' v).link p = s.link p := rfl
@[simp] theorem State.setCore_link (s : State) (core' : Nat) (v : Core) (p : Nat) : (s.setCore core' v).link p = s.link p := rfl
@[simp] theorem State.setStage_link (s : State) (st' : Nat) (v : Stage) (p : Nat) : (s.setStage st' v).link p = s.link p := rfl
@[simp] theorem State.setDie_link (s : State) (d' : Nat) (v : Die) (p : Nat) : (s.setDie d' v).link p = s.link p := rfl
@[simp] theorem State.setPart_link (s : State) (p' : Nat) (v : Partition) (p : Nat) : (s.setPart p' v).link p = s.link p := rfl
@[simp] theorem State.setStack_link (s : State) (k' : Nat) (v : Hbm) (p : Nat) : (s.setStack k' v).link p = s.link p := rfl
@[simp] theorem State.writeBytes_link (s : State) (a : Nat) (bs : List Byte) (p : Nat) : (s.writeBytes a bs).link p = s.link p := rfl
@[simp] theorem State.push_link (s : State) (r : Req) (p : Nat) : (s.push r).link p = s.link p := rfl
@[simp] theorem State.drop_link (s : State) (i : Nat) (p : Nat) : (s.drop i).link p = s.link p := rfl
@[simp] theorem State.replace_link (s : State) (r : Req) (p : Nat) : (s.replace r).link p = s.link p := rfl

@[simp] theorem State.setThread_stack (s : State) (core' ctx' : Nat) (v : Thread) (k : Nat) : (s.setThread core' ctx' v).stack k = s.stack k := rfl
@[simp] theorem State.setCore_stack (s : State) (core' : Nat) (v : Core) (k : Nat) : (s.setCore core' v).stack k = s.stack k := rfl
@[simp] theorem State.setStage_stack (s : State) (st' : Nat) (v : Stage) (k : Nat) : (s.setStage st' v).stack k = s.stack k := rfl
@[simp] theorem State.setDie_stack (s : State) (d' : Nat) (v : Die) (k : Nat) : (s.setDie d' v).stack k = s.stack k := rfl
@[simp] theorem State.setPart_stack (s : State) (p' : Nat) (v : Partition) (k : Nat) : (s.setPart p' v).stack k = s.stack k := rfl
@[simp] theorem State.setLink_stack (s : State) (p' : Nat) (v : Link) (k : Nat) : (s.setLink p' v).stack k = s.stack k := rfl
@[simp] theorem State.writeBytes_stack (s : State) (a : Nat) (bs : List Byte) (k : Nat) : (s.writeBytes a bs).stack k = s.stack k := rfl
@[simp] theorem State.push_stack (s : State) (r : Req) (k : Nat) : (s.push r).stack k = s.stack k := rfl
@[simp] theorem State.drop_stack (s : State) (i : Nat) (k : Nat) : (s.drop i).stack k = s.stack k := rfl
@[simp] theorem State.replace_stack (s : State) (r : Req) (k : Nat) : (s.replace r).stack k = s.stack k := rfl

/-! ## What an update makes of the piece it writes -/

/-- Contexts 0 to 31 of two cores have different numbers. -/
theorem key_inj {c d k l : Nat} (hk : k < 32) (hl : l < 32) : c * 32 + k = d * 32 + l ↔ c = d ∧ k = l := by omega

@[simp] theorem State.setThread_thread_self (s : State) (core ctx : Nat) (v : Thread) :
    (s.setThread core ctx v).thread core ctx = v := by simp [State.setThread, State.thread]

theorem State.setThread_thread_ne (s : State) {core ctx d l : Nat} (v : Thread) (h : core * 32 + ctx ≠ d * 32 + l) :
    (s.setThread core ctx v).thread d l = s.thread d l := by
  simp [State.setThread, State.thread, h]

@[simp] theorem State.setCore_core_self (s : State) (c : Nat) (v : Core) : (s.setCore c v).core c = v := by
  simp [State.setCore, State.core]

theorem State.setCore_core_ne (s : State) {c d : Nat} (v : Core) (h : c ≠ d) : (s.setCore c v).core d = s.core d := by
  simp [State.setCore, State.core, h]

@[simp] theorem State.setStage_stage_self (s : State) (c : Nat) (v : Stage) : (s.setStage c v).stage c = v := by
  simp [State.setStage, State.stage]

theorem State.setStage_stage_ne (s : State) {c d : Nat} (v : Stage) (h : c ≠ d) :
    (s.setStage c v).stage d = s.stage d := by simp [State.setStage, State.stage, h]

@[simp] theorem State.setDie_die_self (s : State) (c : Nat) (v : Die) : (s.setDie c v).die c = v := by
  simp [State.setDie, State.die]

@[simp] theorem State.setPart_part_self (s : State) (c : Nat) (v : Partition) : (s.setPart c v).part c = v := by
  simp [State.setPart, State.part]

theorem State.setPart_part_ne (s : State) {c d : Nat} (v : Partition) (h : c ≠ d) :
    (s.setPart c v).part d = s.part d := by simp [State.setPart, State.part, h]

@[simp] theorem State.setLink_link_self (s : State) (c : Nat) (v : Link) : (s.setLink c v).link c = v := by
  simp [State.setLink, State.link]

@[simp] theorem State.setStack_stack_self (s : State) (c : Nat) (v : Hbm) : (s.setStack c v).stack c = v := by
  simp [State.setStack, State.stack]

/-- The later of two writes of one context stands. -/
@[simp] theorem State.setThread_setThread (s : State) (core ctx : Nat) (v w : Thread) :
    (s.setThread core ctx v).setThread core ctx w = s.setThread core ctx w := by simp [State.setThread]

@[simp] theorem State.setCore_setCore (s : State) (c : Nat) (v w : Core) :
    (s.setCore c v).setCore c w = s.setCore c w := by simp [State.setCore]

/-- Writes of a core and of a context change places. -/
theorem State.setCore_setThread (s : State) (c core ctx : Nat) (v : Core) (t : Thread) :
    (s.setCore c v).setThread core ctx t = (s.setThread core ctx t).setCore c v := rfl

/-! ## The current context -/

@[simp] theorem State.setCur_img (s : State) (t : Thread) : (s.setCur t).img = t.img := by
  simp [State.setCur, State.img, State.curThread]

@[simp] theorem State.setCur_curThread (s : State) (t : Thread) : (s.setCur t).curThread = t := by
  simp [State.setCur, State.curThread]

@[simp] theorem State.setImg_img (s : State) (c : Context) : (s.setImg c).img = c := by simp [State.setImg]

@[simp] theorem State.setImg_curThread (s : State) (c : Context) :
    (s.setImg c).curThread = { s.curThread with img := c } := by simp [State.setImg]

@[simp] theorem State.setSlot_img (s : State) (v : Slot) : (s.setSlot v).img = s.img := by simp [State.setSlot, State.img]

@[simp] theorem State.setCur_setCur (s : State) (t u : Thread) : (s.setCur t).setCur u = s.setCur u := by
  simp [State.setCur]

@[simp] theorem State.setImg_setImg (s : State) (c d : Context) : (s.setImg c).setImg d = s.setImg d := by
  simp [State.setImg]

@[simp] theorem State.setImg_cur (s : State) (c : Context) : (s.setImg c).cur = s.cur := rfl

@[simp] theorem State.setCur_cur (s : State) (c : Thread) : (s.setCur c).cur = s.cur := rfl

end Sys2Proof.Machine
end

