-- ==== Sys2Proof/Laws/Ops.lean ====
section
/-!
SUPPORT. Ops.lean: what the operations of Machine/Ops.lean and Machine/Operands.lean answer, and what their ends are.
-/

namespace Sys2Proof.Machine

/-! ## Running an operation -/

section Run

variable {α β : Type}

@[simp] theorem Op.pure_run (a : α) (s : State) : (pure a : Op α) s = .ok (a, s) := rfl

@[simp] theorem Op.bind_run (x : Op α) (f : α → Op β) (s : State) :
    (x >>= f) s = match x s with
      | .ok (a, t) => f a t
      | .error e => .error e := by
  show (x s >>= fun p => f p.1 p.2) = _
  cases x s <;> rfl

theorem Op.bind_ok {x : Op α} {f : α → Op β} {s t : State} {a : α} (h : x s = .ok (a, t)) : (x >>= f) s = f a t := by
  simp [h]

theorem Op.bind_error {x : Op α} {f : α → Op β} {s : State} {e : Stop} (h : x s = .error e) : (x >>= f) s = .error e := by
  simp [h]

@[simp] theorem Op.get_run (s : State) : (get : Op State) s = .ok (s, s) := rfl

@[simp] theorem Op.set_run (s t : State) : (set t : Op PUnit) s = .ok (⟨⟩, t) := rfl

@[simp] theorem Op.map_run (f : α → β) (x : Op α) (s : State) :
    (f <$> x) s = match x s with
      | .ok (a, t) => .ok (f a, t)
      | .error e => .error e := by
  show (x s >>= fun p => pure (f p.1, p.2)) = _
  cases x s <;> rfl

@[simp] theorem Op.stop_run (r : Stop) (s : State) : (stop r : Op α) s = .error r := rfl

@[simp] theorem Op.trap_run (c : BitVec 7) (a : Word) (s : State) : (trap c a : Op α) s = .error (.trap c a) := rfl

@[simp] theorem Op.ite_run (c : Prop) [Decidable c] (x y : Op α) (s : State) :
    (if c then x else y) s = if c then x s else y s := by split <;> rfl

theorem require_run (b : Bool) (c : BitVec 7) (a : Word) (s : State) :
    require b c a s = if b then .ok ((), s) else .error (.trap c a) := by cases b <;> rfl

theorem await_run (b : Bool) (s : State) : await b s = if b then .ok ((), s) else .error .wait := by cases b <;> rfl

@[simp] theorem require_true (c : BitVec 7) (a : Word) (s : State) : require true c a s = .ok ((), s) := rfl

@[simp] theorem require_false (c : BitVec 7) (a : Word) (s : State) : require false c a s = .error (.trap c a) := rfl

@[simp] theorem await_true (s : State) : await true s = .ok ((), s) := rfl

@[simp] theorem await_false (s : State) : await false s = .error .wait := rfl

end Run

/-! ## The ends of an instruction -/

theorem finish_seq {op : Op Next} {s t : State} (h : op s = .ok (.seq, t)) : finish op s = .next (s.completes t) := by
  simp [finish, h, State.completes]

theorem finish_jump {op : Op Next} {s t : State} {pc : Ulm} (h : op s = .ok (.jump pc, t)) :
    finish op s = .next (s.jumps t pc) := by
  simp [finish, h, State.jumps]

theorem finish_hold {op : Op Next} {s t : State} {w : Wait} (h : op s = .ok (.hold w, t)) :
    finish op s = .next (s.rests t w) := by
  simp [finish, h, State.rests]

theorem finish_stay {op : Op Next} {s t : State} (h : op s = .ok (.stay, t)) :
    finish op s = .next (t.countIssue s.cur.1 s.cur.2) := by
  simp [finish, h]

theorem finish_wait {op : Op Next} {s : State} (h : op s = .error .wait) : finish op s = .next s.stalls := by
  simp [finish, h, State.stalls]

theorem finish_trap {op : Op Next} {s : State} {c : BitVec 7} {a : Word} (h : op s = .error (.trap c a)) :
    finish op s = .next (s.traps c a) := by
  simp [finish, h, State.traps]

theorem plain_ok {op : Op Unit} {s t : State} (h : op s = .ok ((), t)) : plain op s = .next (s.completes t) :=
  finish_seq (by simp [h])

theorem plain_wait {op : Op Unit} {s : State} (h : op s = .error .wait) : plain op s = .next s.stalls :=
  finish_wait (by simp [h])

theorem plain_trap {op : Op Unit} {s : State} {c : BitVec 7} {a : Word} (h : op s = .error (.trap c a)) :
    plain op s = .next (s.traps c a) :=
  finish_trap (by simp [h])

/-! ## Two states that differ only in how the current context is written down -/

/-- The state with its current context written out. -/
def State.shown (s : State) : State := s.setCur s.curThread

@[simp] theorem State.shown_setImg (s : State) (c : Context) : (s.setImg c).shown = s.setImg c := by
  simp [State.shown, State.setImg]

theorem State.setImg_self (s : State) : s.setImg s.img = s.shown := rfl

theorem State.completes_shown {s t u : State} (h : t.shown = u.shown) (ht : t.cur = s.cur) (hu : u.cur = s.cur) :
    s.completes t = s.completes u := by
  have key : ∀ v : State, v.cur = s.cur → s.completes v = s.completes v.shown := by
    intro v hv
    simp [State.completes, State.retireTo, State.shown, State.setCur, State.curThread, hv]
  rw [key t ht, key u hu, h]

@[simp] theorem State.completes_setImg_self (s : State) : s.completes (s.setImg s.img) = s.completes s :=
  State.completes_shown (by simp [State.setImg_self, State.shown]) rfl rfl

end Sys2Proof.Machine
end

