-- ==== Sys2Proof/Laws/Operands.lean ====
section
/-!
SUPPORT. Operands.lean: what reading a source and writing a destination answer.
-/

namespace Sys2Proof.Machine

/-! ## Streams and registers of a context -/

/-- A register that holds no window write is as good as read. -/
theorem Context.unwindow_of_clear {c : Context} {r : Nat} (h : c.isWindowed r = false) : c.unwindow r = c := by
  by_cases h0 : r = 0
  · simp [Context.unwindow, h0]
  have h : c.windowed.getLsbD r = false := by simpa [Context.isWindowed, h0] using h
  have e : c.windowed &&& ~~~(1#48 <<< r) = c.windowed := by
    apply BitVec.eq_of_getLsbD_eq
    intro i hi
    simp only [BitVec.getLsbD_and, BitVec.getLsbD_not, BitVec.getLsbD_shiftLeft]
    by_cases hr : i = r
    · subst hr; simpa using h
    · rcases Nat.lt_or_gt_of_ne hr with hl | hg
      · simp [hi, hl]
      · have : i - r ≠ 0 := by omega
        simp [hi, this]
  simp [Context.unwindow, e]

@[simp] theorem Context.unwindow_x (c : Context) (r : Nat) : (c.unwindow r).x = c.x := by
  unfold Context.unwindow; split <;> rfl

@[simp] theorem Context.unwindow_v (c : Context) (r : Nat) : (c.unwindow r).v = c.v := by
  unfold Context.unwindow; split <;> rfl

@[simp] theorem Context.unwindow_gens (c : Context) (r : Nat) : (c.unwindow r).gens = c.gens := by
  unfold Context.unwindow; split <;> rfl

@[simp] theorem Context.genOf_unwindow (c : Context) (k : Nat) (r : XName) : (c.unwindow k).genOf r = c.genOf r := by
  simp [Context.genOf]

/-- A change of the generators' progress leaves their bindings as they are. -/
theorem Context.genOf_popped (c : Context) (a r : XName) : (c.popped a).genOf r = c.genOf r := by
  unfold Context.popped
  cases h : c.genOf a with
  | none => exact c.genOf_unwindow _ r
  | some k =>
    simp only [Context.genOf]
    congr 1
    funext i
    by_cases hi : k = i
    · subst hi; simp [Gen.xreg]
    · have : (k : Nat) ≠ i := fun e => hi (Fin.ext e)
      simp [this]

@[simp] theorem Context.popped_x (c : Context) (a : XName) : (c.popped a).x = c.x := by
  unfold Context.popped; split
  · rfl
  · exact c.unwindow_x _

@[simp] theorem Context.popped2_x (c : Context) (a b : XName) : (c.popped2 a b).x = c.x := by
  unfold Context.popped2; split <;> simp

theorem Context.genOf_popped2 (c : Context) (a b r : XName) : (c.popped2 a b).genOf r = c.genOf r := by
  unfold Context.popped2; split <;> simp [Context.genOf_popped]

/-- A register without a generator is only marked read. -/
theorem Context.popped_unbound {c : Context} {a : XName} (h : c.unbound a) : c.popped a = c.unwindow a.toNat := by
  unfold Context.unbound at h
  simp [Context.popped, h]

/-- A register with neither generator nor window write gives its value and nothing changes. -/
theorem Context.popped_plain {c : Context} {a : XName} (h : c.unbound a) (hw : c.isWindowed a.toNat = false) :
    c.popped a = c := by
  rw [Context.popped_unbound h, Context.unwindow_of_clear hw]

@[simp] theorem Context.genOf_put (c : Context) (d r : XName) (v : Quad) (tag : Bool) : (c.put d v tag).genOf r = c.genOf r := by
  unfold Context.put; split
  · rfl
  · rw [Context.genOf_unwindow]; rfl

@[simp] theorem Context.genOf_putWord (c : Context) (d r : XName) (v : Word) : (c.putWord d v).genOf r = c.genOf r := by
  simp [Context.putWord]

/-! ## Sources -/

theorem awaitWindowed_ok {r : Nat} {s : State} (h : s.ordered r) : awaitWindowed r s = .ok ((), s) := by
  unfold State.ordered at h
  simp only [awaitWindowed, Op.bind_run, Op.get_run, Op.ite_run]
  split
  · simp [awaitFences, await_run, h ‹_›]
  · rfl

theorem sourceReady_ok {a : Src} {s : State} (h : s.readable a.reg) : sourceReady a s = .ok ((), s) := by
  unfold State.readable at h
  unfold sourceReady
  cases hg : s.img.genOf a.reg with
  | none =>
    simp only [hg] at h
    simp only [Op.bind_run, Op.get_run, hg, Op.ite_run]
    rw [if_pos h.1, awaitWindowed_ok h.2]
  | some k =>
    simp [hg] at h
    simp [hg, h]

/-- An empty source that no generator serves: with its wait bit it traps, without it waits (04 R52). -/
theorem sourceReady_empty {a : Src} {s : State} (hu : s.img.unbound a.reg) (h0 : a.reg ≠ 0#5)
    (he : (s.img.x[a.reg.toFin]).full = false) :
    sourceReady a s = if a.mark then .error (.trap Cause.emptyOperand (a.reg.setWidth 64)) else .error .wait := by
  unfold Context.unbound at hu
  unfold sourceReady
  simp at he
  simp [hu, h0, he]

theorem popStream_ok (r : XName) (s : State) : popStream r s = .ok ((), s.pop r) := by
  unfold popStream State.pop Context.popped
  cases hg : s.img.genOf r with
  | some k => simp [hg, setGen, Gen.size]
  | none => cases hw : s.img.isWindowed r.toNat <;> simp [hg, hw]

theorem State.pop_img (s : State) (r : XName) : (s.pop r).img = s.img.popped r := by
  unfold State.pop
  split
  next h => rw [Context.popped_plain h.1 h.2]
  next => simp

theorem State.pop_cur (s : State) (r : XName) : (s.pop r).cur = s.cur := by
  unfold State.pop
  split <;> rfl

theorem State.pop_shown (s : State) (r : XName) : (s.pop r).shown = s.setImg (s.img.popped r) := by
  unfold State.pop
  split
  next h => rw [Context.popped_plain h.1 h.2, State.setImg_self]
  next => simp

theorem State.pop_plain {s : State} {r : XName} (h : s.img.unbound r) (hw : s.img.isWindowed r.toNat = false) :
    s.pop r = s := if_pos ⟨h, hw⟩

theorem popStream_run (r : XName) (s : State) :
    ∃ t, popStream r s = .ok ((), t) ∧ t.shown = s.setImg (s.img.popped r) ∧ t.img = s.img.popped r ∧ t.cur = s.cur :=
  ⟨s.pop r, popStream_ok r s, s.pop_shown r, s.pop_img r, s.pop_cur r⟩

theorem State.setImg_of_shown {s t : State} {c : Context} (h : t.shown = s.setImg c) (d : Context) :
    t.setImg d = s.setImg d := by
  have e : t.setImg d = t.shown.setImg d := by simp [State.shown, State.setImg]
  rw [e, h, State.setImg_setImg]

theorem readSrc_run {a : Src} {s : State} (h : s.readable a.reg) :
    ∃ t, readSrc a s = .ok (s.img.sourceVal a.reg, t) ∧ t.shown = s.setImg (s.img.popped a.reg) ∧
      t.img = s.img.popped a.reg ∧ t.cur = s.cur := by
  obtain ⟨t, ht, h1, h2, h3⟩ := popStream_run a.reg s
  exact ⟨t, by simp [readSrc, sourceReady_ok h, ht], h1, h2, h3⟩

theorem readSrc2_run {a b : Src} {s : State} (ha : s.readable a.reg) (hb : s.readable b.reg) :
    ∃ t, readSrc2 a b s = .ok ((s.img.sourceVal a.reg, s.img.sourceVal b.reg), t) ∧
      t.shown = s.setImg (s.img.popped2 a.reg b.reg) ∧ t.img = s.img.popped2 a.reg b.reg ∧ t.cur = s.cur := by
  obtain ⟨t, ht, h1, h2, h3⟩ := popStream_run a.reg s
  by_cases hab : a.reg = b.reg
  · exact ⟨t, by simp [readSrc2, sourceReady_ok ha, sourceReady_ok hb, hab ▸ ht, hab], by simp [Context.popped2, hab, hab ▸ h1],
      by simp [Context.popped2, hab, hab ▸ h2], h3⟩
  · obtain ⟨u, hu, g1, g2, g3⟩ := popStream_run b.reg t
    refine ⟨u, by simp [readSrc2, sourceReady_ok ha, sourceReady_ok hb, ht, hab, hu], ?_, ?_, g3.trans h3⟩
    · rw [g1, State.setImg_of_shown h1, h2]; simp [Context.popped2, hab]
    · rw [g2, h2]; simp [Context.popped2, hab]

/-- A ready source gives its value, and one element is popped where a stream is bound. -/
theorem readSrc_ok {a : Src} {s : State} (h : s.readable a.reg) :
    readSrc a s = .ok (s.img.sourceVal a.reg, s.pop a.reg) := by
  simp [readSrc, sourceReady_ok h, popStream_ok]

theorem readSrc2_ok {a b : Src} {s : State} (ha : s.readable a.reg) (hb : s.readable b.reg) :
    readSrc2 a b s = .ok ((s.img.sourceVal a.reg, s.img.sourceVal b.reg), s.pop2 a.reg b.reg) := by
  by_cases hab : a.reg = b.reg
  · simp [readSrc2, sourceReady_ok ha, sourceReady_ok hb, popStream_ok, hab, State.pop2]
  · simp [readSrc2, sourceReady_ok ha, sourceReady_ok hb, popStream_ok, hab, State.pop2]

theorem readDest_ok {d : XName} {s : State} (h : s.img.writable d) (ho : s.ordered d.toNat) :
    readDest d s = .ok (s.img.sourceVal d, s) := by
  obtain ⟨hu, hf⟩ := h
  unfold Context.unbound at hu
  simp at hf
  simp [readDest, hu, require_run, await_run, hf, awaitWindowed_ok ho]

/-! ## Destinations -/

theorem destReady_ok {d : XName} {s : State} (h : s.img.writable d) : destReady d s = .ok ((), s) := by
  obtain ⟨hu, hf⟩ := h
  unfold Context.unbound at hu
  simp at hf
  simp [destReady, hu, await_run, hf]

/-- An empty destination waits whatever the sources' wait bits (04 R52). -/
theorem destReady_empty {d : XName} {s : State} (hu : s.img.unbound d) (h0 : d ≠ 0#5) (he : (s.img.x[d.toFin]).full = false) :
    destReady d s = .error .wait := by
  unfold Context.unbound at hu
  simp at he
  simp [destReady, hu, await_run, h0, he]

/-- A write of an unbound register from a state that shows itself as s with context c. -/
theorem writeX_run {s t : State} {c : Context} {d : XName} (ht : t.shown = s.setImg c) (hi : t.img = c) (hc : t.cur = s.cur)
    (hu : c.unbound d) (v : Quad) (tag : Bool) :
    ∃ u, writeX d v tag t = .ok ((), u) ∧ u.shown = s.setImg (c.put d v tag) ∧ u.img = c.put d v tag ∧ u.cur = s.cur := by
  unfold Context.unbound at hu
  by_cases h0 : d = 0#5
  · subst h0
    exact ⟨t, by simp [writeX, hi, hu, setX], by simp [Context.put, ht], by simp [Context.put, hi], hc⟩
  · refine ⟨t.setImg (c.put d v tag), ?_, ?_, by simp, by simp [hc]⟩
    · simp [writeX, hi, hu, setX, h0, Context.put]
    · simp [State.setImg_of_shown ht]

theorem writeWord_run {s t : State} {c : Context} {d : XName} (ht : t.shown = s.setImg c) (hi : t.img = c) (hc : t.cur = s.cur)
    (hu : c.unbound d) (v : Word) :
    ∃ u, writeWord d v t = .ok ((), u) ∧ u.shown = s.setImg (c.putWord d v) ∧ u.img = c.putWord d v ∧ u.cur = s.cur :=
  writeX_run ht hi hc hu _ _

/-- What a completing instruction's effects are, when its last state shows itself as s with context c. -/
theorem plain_shown {op : Op Unit} {s t : State} {c : Context} (h : op s = .ok ((), t)) (ht : t.shown = s.setImg c)
    (hc : t.cur = s.cur) : plain op s = .next (s.completes (s.setImg c)) := by
  rw [plain_ok h, State.completes_shown (u := s.setImg c) (by simp [ht]) hc rfl]

theorem writable_popped {c : Context} {d a : XName} (h : c.writable d) : (c.popped a).unbound d := by
  unfold Context.unbound; rw [Context.genOf_popped]; exact h.1

theorem writable_popped2 {c : Context} {d a b : XName} (h : c.writable d) : (c.popped2 a b).unbound d := by
  unfold Context.unbound; rw [Context.genOf_popped2]; exact h.1

end Sys2Proof.Machine
end

