-- ==== Sys2Proof/Laws/Access.lean ====
section
/-!
SUPPORT. Access.lean: what the checks of an access to the core's own ULM answer.
-/

namespace Sys2Proof.Claims

open Sys2Proof.Machine

/-- What an access that the claims call local needs. -/
def needOf (load tags : Bool) : Need := ⟨load, !load, false, false, tags⟩

/-- An access that passes every check goes to the ULM offset the claims compute. -/
theorem accessCheck_local {r : XReg} {load tags : Bool} {off : Int} {n a : Nat} {s : State}
    (h : localOffset s.img.mode r load tags off n = some a) :
    accessCheck r (needOf load tags) off n n s = .ok (.local a, s) := by
  unfold localOffset at h
  simp only [Option.ite_none_right_eq_some] at h
  obtain ⟨⟨h1, h2, h3, h4, h5, h6, h7, h8, h9, h10, h11⟩, ha⟩ := h
  have ha : (((Quad.cursor r.val).toNat : Int) + off).toNat = a := by simpa using ha
  have hmod : a % n = 0 := by
    have hdvd := Int.dvd_of_emod_eq_zero h10
    rw [← Int.toNat_of_nonneg h8, ha] at hdvd
    exact Nat.mod_eq_zero_of_dvd (Int.natCast_dvd_natCast.mp hdvd)
  have hmet : (needOf load tags).met r.val = true := by
    cases load <;> cases tags <;> simp_all [needOf, Need.met]
  have hb : linearBounds r.val off n = true := by
    simp [linearBounds, h3, h6, h7, h8, h9]
  have hd : derefFail r (needOf load tags) off n = none := by
    simp [derefFail, h1, h2, hmet, hb]
  have ht : capTarget r.val off = .local a := by
    simp only [capTarget, h2, h3, ha]; rfl
  have hw : wingsCheck r.val load a n s = .ok ((), s) := by
    simp only [wingsCheck, Op.bind_run, Op.get_run, h2, h3, require_run]
    refine if_pos ?_
    rcases h11 with hm | hm | ⟨hl, hs, hp, hq⟩
    · cases hmode : s.img.mode <;> simp_all
    · have : ¬ (a + n > 0x38000) := by omega
      simp [this]
    · simp [hl, hs, inPayload, hp, hq]
  simp only [accessCheck, derefCheck, hd, ht, h3, Op.bind_run, Op.pure_run, Bool.and_false, Target.ulmOff, Target.addr]
  simp [hmod, needOf, hw]

end Sys2Proof.Claims
end

