-- ==== Sys2Proof/Laws/Bits.lean ====
section
/-!
SUPPORT. Bits.lean: cutting a field out of a word that the encoder packed, for the round trips.
-/

namespace Sys2Proof

@[simp] theorem bits_fst {n : Nat} (x : BitVec n) : (bits x).1 = n := rfl

@[simp] theorem mark_fst (a : Src) : (mark a).1 = 1 := rfl

/-- The width of a list of fields. -/
def fieldsWidth (fs : List Field) : Nat := (fs.map Prod.fst).sum

/-- Does every field hold a value of its width? -/
def FieldsFit (fs : List Field) : Prop := ∀ f ∈ fs, f.2 < 2 ^ f.1

@[simp] theorem fieldsWidth_nil : fieldsWidth [] = 0 := rfl

@[simp] theorem fieldsWidth_cons (f : Field) (fs : List Field) : fieldsWidth (f :: fs) = f.1 + fieldsWidth fs := rfl

@[simp] theorem fieldsFit_nil : FieldsFit [] := by simp [FieldsFit]

@[simp] theorem fieldsFit_bits {n : Nat} (x : BitVec n) (fs : List Field) : FieldsFit (bits x :: fs) ↔ FieldsFit fs := by
  simp [FieldsFit, bits, x.isLt]

@[simp] theorem fieldsFit_mark (a : Src) (fs : List Field) : FieldsFit (mark a :: fs) ↔ FieldsFit fs := by simp [mark]

theorem packNat_lt (fs : List Field) (h : FieldsFit fs) : packNat fs < 2 ^ fieldsWidth fs := by
  induction fs with
  | nil => simp [packNat, fieldsWidth]
  | cons f fs ih =>
    have hf := h f (by simp)
    have := ih (fun g hg => h g (by simp [hg]))
    simp only [packNat, fieldsWidth, List.map_cons, List.sum_cons, Nat.shiftLeft_eq, Nat.pow_add] at *
    calc _ < f.2 * 2 ^ (fs.map Prod.fst).sum + 2 ^ (fs.map Prod.fst).sum := by omega
      _ = (f.2 + 1) * 2 ^ (fs.map Prod.fst).sum := by rw [Nat.add_mul]; simp
      _ ≤ _ := Nat.mul_le_mul_right _ hf

/-- n bits from bit s of what a list of fields packs. -/
def cutField (s n : Nat) (fs : List Field) : BitVec n := BitVec.ofNat n (packNat fs >>> s)

theorem ext_pack {m : Nat} (fs : List Field) (s n : Nat) (p : (s + n ≤ m) = True) :
    ext s n (pack (n := m) fs) = cutField s n fs := by
  have p := of_eq_true p
  apply BitVec.eq_of_toNat_eq
  simp only [ext, pack, cutField, BitVec.toNat_ofNat, Nat.shiftRight_eq_div_pow]
  obtain ⟨k, rfl⟩ : ∃ k, m = s + (n + k) := ⟨m - s - n, by omega⟩
  rw [Nat.pow_add, Nat.mod_mul_right_div_self, Nat.pow_add, Nat.mod_mul_right_mod]

/-- The highest field does not show in bits below it. -/
theorem cutField_below (f : Field) (fs : List Field) (s n : Nat) (p : (s + n ≤ fieldsWidth fs) = True) :
    cutField s n (f :: fs) = cutField s n fs := by
  have p := of_eq_true p
  apply BitVec.eq_of_toNat_eq
  simp only [cutField, packNat, BitVec.toNat_ofNat, Nat.shiftRight_eq_div_pow, Nat.shiftLeft_eq]
  change (f.2 * 2 ^ fieldsWidth fs + _) / _ % _ = _
  obtain ⟨k, hk⟩ : ∃ k, fieldsWidth fs = s + (n + k) := ⟨fieldsWidth fs - s - n, by omega⟩
  rw [hk, Nat.pow_add, ← Nat.mul_assoc, Nat.mul_right_comm, Nat.mul_comm _ (2 ^ s), Nat.mul_add_div (Nat.pow_pos (by simp)),
    Nat.pow_add, ← Nat.mul_assoc, Nat.mul_right_comm, Nat.add_comm]
  simp

theorem cutField_top {n : Nat} (x : BitVec n) (fs : List Field) (h : FieldsFit fs) :
    cutField (fieldsWidth fs) n (bits x :: fs) = x := by
  apply BitVec.eq_of_toNat_eq
  have := packNat_lt fs h
  simp only [cutField, packNat, BitVec.toNat_ofNat, Nat.shiftRight_eq_div_pow, Nat.shiftLeft_eq, bits]
  change (x.toNat * 2 ^ fieldsWidth fs + _) / _ % _ = _
  rw [Nat.mul_comm, Nat.mul_add_div (Nat.pow_pos (by simp)), Nat.div_eq_of_lt this]
  simp only [Nat.add_zero]
  exact Nat.mod_eq_of_lt x.isLt

/-- The highest field, cut out. -/
theorem cutField_bits {n : Nat} (x : BitVec n) (fs : List Field) (s : Nat) (p : (s = fieldsWidth fs) = True) (h : FieldsFit fs) :
    cutField s n (bits x :: fs) = x := by
  have p := of_eq_true p
  subst p
  exact cutField_top x fs h

theorem cutField_mark (a : Src) (fs : List Field) (s : Nat) (p : (s = fieldsWidth fs) = True) (h : FieldsFit fs) :
    cutField s 1 (mark a :: fs) = BitVec.ofBool a.mark := by
  have p := of_eq_true p
  subst p
  exact cutField_top _ fs h

theorem cutField_one {w : Nat} (x : BitVec w) (s n : Nat) : cutField s n [bits x] = BitVec.ofNat n (x.toNat >>> s) := by
  simp [cutField, packNat, bits]

@[simp] theorem bit_ofBool (b : Bool) : bit (BitVec.ofBool b) = b := by cases b <;> rfl

end Sys2Proof
end

