-- ==== Sys2Proof/Laws/Dispatch.lean ====
section
/-!
SUPPORT. Dispatch.lean: the arm of every constructor, one equation each.
-/

namespace Sys2Proof.Machine

theorem exec_add (s : State) : ∀ d a b, exec (.add d a b) s = execAdd d a b s := fun _ _ _ => rfl
theorem exec_sub (s : State) : ∀ d a b, exec (.sub d a b) s = execSub d a b s := fun _ _ _ => rfl
theorem exec_and (s : State) : ∀ d a b, exec (.and d a b) s = execAnd d a b s := fun _ _ _ => rfl
theorem exec_or (s : State) : ∀ d a b, exec (.or d a b) s = execOr d a b s := fun _ _ _ => rfl
theorem exec_xor (s : State) : ∀ d a b, exec (.xor d a b) s = execXor d a b s := fun _ _ _ => rfl
theorem exec_andn (s : State) : ∀ d a b, exec (.andn d a b) s = execAndn d a b s := fun _ _ _ => rfl
theorem exec_orn (s : State) : ∀ d a b, exec (.orn d a b) s = execOrn d a b s := fun _ _ _ => rfl
theorem exec_min (s : State) : ∀ d a b, exec (.min d a b) s = execMin d a b s := fun _ _ _ => rfl
theorem exec_max (s : State) : ∀ d a b, exec (.max d a b) s = execMax d a b s := fun _ _ _ => rfl
theorem exec_minu (s : State) : ∀ d a b, exec (.minu d a b) s = execMinu d a b s := fun _ _ _ => rfl
theorem exec_maxu (s : State) : ∀ d a b, exec (.maxu d a b) s = execMaxu d a b s := fun _ _ _ => rfl
theorem exec_slt (s : State) : ∀ d a b, exec (.slt d a b) s = execSlt d a b s := fun _ _ _ => rfl
theorem exec_sltu (s : State) : ∀ d a b, exec (.sltu d a b) s = execSltu d a b s := fun _ _ _ => rfl
theorem exec_seq (s : State) : ∀ d a b, exec (.seq d a b) s = execSeq d a b s := fun _ _ _ => rfl
theorem exec_sel (s : State) : ∀ d a b, exec (.sel d a b) s = execSel d a b s := fun _ _ _ => rfl
theorem exec_abs (s : State) : ∀ d a, exec (.abs d a) s = execAbs d a s := fun _ _ => rfl
theorem exec_addi (s : State) : ∀ d a i, exec (.addi d a i) s = execAddi d a i s := fun _ _ _ => rfl
theorem exec_andi (s : State) : ∀ d a i, exec (.andi d a i) s = execAndi d a i s := fun _ _ _ => rfl
theorem exec_ori (s : State) : ∀ d a i, exec (.ori d a i) s = execOri d a i s := fun _ _ _ => rfl
theorem exec_xori (s : State) : ∀ d a i, exec (.xori d a i) s = execXori d a i s := fun _ _ _ => rfl
theorem exec_slti (s : State) : ∀ d a i, exec (.slti d a i) s = execSlti d a i s := fun _ _ _ => rfl
theorem exec_sltiu (s : State) : ∀ d a i, exec (.sltiu d a i) s = execSltiu d a i s := fun _ _ _ => rfl
theorem exec_ldi (s : State) : ∀ d i, exec (.ldi d i) s = execLdi d i s := fun _ _ => rfl
theorem exec_ldiL (s : State) : ∀ d i, exec (.ldiL d i) s = execLdiL d i s := fun _ _ => rfl
theorem exec_shl (s : State) : ∀ d a b, exec (.shl d a b) s = execShl d a b s := fun _ _ _ => rfl
theorem exec_shr (s : State) : ∀ d a b, exec (.shr d a b) s = execShr d a b s := fun _ _ _ => rfl
theorem exec_sra (s : State) : ∀ d a b, exec (.sra d a b) s = execSra d a b s := fun _ _ _ => rfl
theorem exec_rot (s : State) : ∀ d a b, exec (.rot d a b) s = execRot d a b s := fun _ _ _ => rfl
theorem exec_fshl (s : State) : ∀ d a b, exec (.fshl d a b) s = execFshl d a b s := fun _ _ _ => rfl
theorem exec_fshr (s : State) : ∀ d a b, exec (.fshr d a b) s = execFshr d a b s := fun _ _ _ => rfl
theorem exec_shli (s : State) : ∀ d a i, exec (.shli d a i) s = execShli d a i s := fun _ _ _ => rfl
theorem exec_shri (s : State) : ∀ d a i, exec (.shri d a i) s = execShri d a i s := fun _ _ _ => rfl
theorem exec_srai (s : State) : ∀ d a i, exec (.srai d a i) s = execSrai d a i s := fun _ _ _ => rfl
theorem exec_roti (s : State) : ∀ d a i, exec (.roti d a i) s = execRoti d a i s := fun _ _ _ => rfl
theorem exec_clz (s : State) : ∀ d a, exec (.clz d a) s = execClz d a s := fun _ _ => rfl
theorem exec_ctz (s : State) : ∀ d a, exec (.ctz d a) s = execCtz d a s := fun _ _ => rfl
theorem exec_popc (s : State) : ∀ d a, exec (.popc d a) s = execPopc d a s := fun _ _ => rfl
theorem exec_brev (s : State) : ∀ d a, exec (.brev d a) s = execBrev d a s := fun _ _ => rfl
theorem exec_sext (s : State) : ∀ d a n, exec (.sext d a n) s = execSext d a n s := fun _ _ _ => rfl
theorem exec_zext (s : State) : ∀ d a n, exec (.zext d a n) s = execZext d a n s := fun _ _ _ => rfl
theorem exec_bext (s : State) : ∀ d a b, exec (.bext d a b) s = execBext d a b s := fun _ _ _ => rfl
theorem exec_bins (s : State) : ∀ d a b, exec (.bins d a b) s = execBins d a b s := fun _ _ _ => rfl
theorem exec_mul (s : State) : ∀ d a b, exec (.mul d a b) s = execMul d a b s := fun _ _ _ => rfl
theorem exec_mulh (s : State) : ∀ d a b, exec (.mulh d a b) s = execMulh d a b s := fun _ _ _ => rfl
theorem exec_mulhu (s : State) : ∀ d a b, exec (.mulhu d a b) s = execMulhu d a b s := fun _ _ _ => rfl
theorem exec_mulhm (s : State) : ∀ d a b, exec (.mulhm d a b) s = execMulhm d a b s := fun _ _ _ => rfl
theorem exec_div (s : State) : ∀ d a b, exec (.div d a b) s = execDiv d a b s := fun _ _ _ => rfl
theorem exec_divu (s : State) : ∀ d a b, exec (.divu d a b) s = execDivu d a b s := fun _ _ _ => rfl
theorem exec_rem (s : State) : ∀ d a b, exec (.rem d a b) s = execRem d a b s := fun _ _ _ => rfl
theorem exec_remu (s : State) : ∀ d a b, exec (.remu d a b) s = execRemu d a b s := fun _ _ _ => rfl
theorem exec_csetb (s : State) : ∀ d a b, exec (.csetb d a b) s = execCsetb d a b s := fun _ _ _ => rfl
theorem exec_cperm (s : State) : ∀ d a b, exec (.cperm d a b) s = execCperm d a b s := fun _ _ _ => rfl
theorem exec_cinc (s : State) : ∀ d a b, exec (.cinc d a b) s = execCinc d a b s := fun _ _ _ => rfl
theorem exec_cmesh (s : State) : ∀ d a b, exec (.cmesh d a b) s = execCmesh d a b s := fun _ _ _ => rfl
theorem exec_ctest (s : State) : ∀ d a b, exec (.ctest d a b) s = execCtest d a b s := fun _ _ _ => rfl
theorem exec_cclr (s : State) : ∀ d a, exec (.cclr d a) s = execCclr d a s := fun _ _ => rfl
theorem exec_cinci (s : State) : ∀ d a i, exec (.cinci d a i) s = execCinci d a i s := fun _ _ _ => rfl
theorem exec_cget (s : State) : ∀ d f a, exec (.cget d f a) s = execCget d f a s := fun _ _ _ => rfl
theorem exec_beq (s : State) : ∀ a b o, exec (.beq a b o) s = execBeq a b o s := fun _ _ _ => rfl
theorem exec_bne (s : State) : ∀ a b o, exec (.bne a b o) s = execBne a b o s := fun _ _ _ => rfl
theorem exec_blt (s : State) : ∀ a b o, exec (.blt a b o) s = execBlt a b o s := fun _ _ _ => rfl
theorem exec_bge (s : State) : ∀ a b o, exec (.bge a b o) s = execBge a b o s := fun _ _ _ => rfl
theorem exec_bltu (s : State) : ∀ a b o, exec (.bltu a b o) s = execBltu a b o s := fun _ _ _ => rfl
theorem exec_bgeu (s : State) : ∀ a b o, exec (.bgeu a b o) s = execBgeu a b o s := fun _ _ _ => rfl
theorem exec_jal (s : State) : ∀ d o, exec (.jal d o) s = execJal d o s := fun _ _ => rfl
theorem exec_bL (s : State) : ∀ c a b o, exec (.bL c a b o) s = execBL c a b o s := fun _ _ _ _ => rfl
theorem exec_jr (s : State) : ∀ a, exec (.jr a) s = execJr a s := fun _ => rfl
theorem exec_jalr (s : State) : ∀ d a, exec (.jalr d a) s = execJalr d a s := fun _ _ => rfl
theorem exec_done (s : State) : exec (.done) s = execDone s := rfl
theorem exec_yield (s : State) : exec (.yield) s = execYield s := rfl
theorem exec_nop (s : State) : exec (.nop) s = execNop s := rfl
theorem exec_waitf (s : State) : ∀ d, exec (.waitf d) s = execWaitf d s := fun _ => rfl
theorem exec_loop (s : State) : ∀ a e, exec (.loop a e) s = execLoop a e s := fun _ _ => rfl
theorem exec_trap (s : State) : ∀ c, exec (.trap c) s = execTrap c s := fun _ => rfl
theorem exec_loopi (s : State) : ∀ n e, exec (.loopi n e) s = execLoopi n e s := fun _ _ => rfl
theorem exec_lb (s : State) : ∀ d a i, exec (.lb d a i) s = execLb d a i s := fun _ _ _ => rfl
theorem exec_lh (s : State) : ∀ d a i, exec (.lh d a i) s = execLh d a i s := fun _ _ _ => rfl
theorem exec_lw (s : State) : ∀ d a i, exec (.lw d a i) s = execLw d a i s := fun _ _ _ => rfl
theorem exec_ld (s : State) : ∀ d a i, exec (.ld d a i) s = execLd d a i s := fun _ _ _ => rfl
theorem exec_lbu (s : State) : ∀ d a i, exec (.lbu d a i) s = execLbu d a i s := fun _ _ _ => rfl
theorem exec_lhu (s : State) : ∀ d a i, exec (.lhu d a i) s = execLhu d a i s := fun _ _ _ => rfl
theorem exec_lwu (s : State) : ∀ d a i, exec (.lwu d a i) s = execLwu d a i s := fun _ _ _ => rfl
theorem exec_lq (s : State) : ∀ d a i, exec (.lq d a i) s = execLq d a i s := fun _ _ _ => rfl
theorem exec_sb (s : State) : ∀ a b i, exec (.sb a b i) s = execSb a b i s := fun _ _ _ => rfl
theorem exec_sh (s : State) : ∀ a b i, exec (.sh a b i) s = execSh a b i s := fun _ _ _ => rfl
theorem exec_sw (s : State) : ∀ a b i, exec (.sw a b i) s = execSw a b i s := fun _ _ _ => rfl
theorem exec_sd (s : State) : ∀ a b i, exec (.sd a b i) s = execSd a b i s := fun _ _ _ => rfl
theorem exec_sq (s : State) : ∀ a b i, exec (.sq a b i) s = execSq a b i s := fun _ _ _ => rfl
theorem exec_sbPostinc (s : State) : ∀ a b i, exec (.sbPostinc a b i) s = execSbPostinc a b i s := fun _ _ _ => rfl
theorem exec_shPostinc (s : State) : ∀ a b i, exec (.shPostinc a b i) s = execShPostinc a b i s := fun _ _ _ => rfl
theorem exec_swPostinc (s : State) : ∀ a b i, exec (.swPostinc a b i) s = execSwPostinc a b i s := fun _ _ _ => rfl
theorem exec_sdPostinc (s : State) : ∀ a b i, exec (.sdPostinc a b i) s = execSdPostinc a b i s := fun _ _ _ => rfl
theorem exec_sqPostinc (s : State) : ∀ a b i, exec (.sqPostinc a b i) s = execSqPostinc a b i s := fun _ _ _ => rfl
theorem exec_lbPostinc (s : State) : ∀ d a i, exec (.lbPostinc d a i) s = execLbPostinc d a i s := fun _ _ _ => rfl
theorem exec_lhPostinc (s : State) : ∀ d a i, exec (.lhPostinc d a i) s = execLhPostinc d a i s := fun _ _ _ => rfl
theorem exec_lwPostinc (s : State) : ∀ d a i, exec (.lwPostinc d a i) s = execLwPostinc d a i s := fun _ _ _ => rfl
theorem exec_ldPostinc (s : State) : ∀ d a i, exec (.ldPostinc d a i) s = execLdPostinc d a i s := fun _ _ _ => rfl
theorem exec_lbuPostinc (s : State) : ∀ d a i, exec (.lbuPostinc d a i) s = execLbuPostinc d a i s := fun _ _ _ => rfl
theorem exec_lhuPostinc (s : State) : ∀ d a i, exec (.lhuPostinc d a i) s = execLhuPostinc d a i s := fun _ _ _ => rfl
theorem exec_lwuPostinc (s : State) : ∀ d a i, exec (.lwuPostinc d a i) s = execLwuPostinc d a i s := fun _ _ _ => rfl
theorem exec_lqPostinc (s : State) : ∀ d a i, exec (.lqPostinc d a i) s = execLqPostinc d a i s := fun _ _ _ => rfl
theorem exec_lea (s : State) : ∀ d a sv i, exec (.lea d a sv i) s = execLea d a sv i s := fun _ _ _ _ => rfl
theorem exec_sbind (s : State) : ∀ d g a e, exec (.sbind d g a e) s = execSbind d g a e s := fun _ _ _ _ => rfl
theorem exec_sbindA (s : State) : ∀ d g a e, exec (.sbindA d g a e) s = execSbindA d g a e s := fun _ _ _ _ => rfl
theorem exec_sunbind (s : State) : ∀ d, exec (.sunbind d) s = execSunbind d s := fun _ => rfl
theorem exec_sstat (s : State) : ∀ d g, exec (.sstat d g) s = execSstat d g s := fun _ _ => rfl
theorem exec_streamFetch (s : State) : ∀ core ctx gen, exec (.streamFetch core ctx gen) s = execStreamFetch core ctx gen s := fun _ _ _ => rfl
theorem exec_dpull (s : State) : ∀ d c a b, exec (.dpull d c a b) s = execDpull d c a b s := fun _ _ _ _ => rfl
theorem exec_dpush (s : State) : ∀ d c a b, exec (.dpush d c a b) s = execDpush d c a b s := fun _ _ _ _ => rfl
theorem exec_dgath (s : State) : ∀ d c a b, exec (.dgath d c a b) s = execDgath d c a b s := fun _ _ _ _ => rfl
theorem exec_cwait (s : State) : ∀ c i, exec (.cwait c i) s = execCwait c i s := fun _ _ => rfl
theorem exec_cwaitReg (s : State) : ∀ c a, exec (.cwaitReg c a) s = execCwaitReg c a s := fun _ _ => rfl
theorem exec_cadd (s : State) : ∀ c i, exec (.cadd c i) s = execCadd c i s := fun _ _ => rfl
theorem exec_caddReg (s : State) : ∀ c a, exec (.caddReg c a) s = execCaddReg c a s := fun _ _ => rfl
theorem exec_cset (s : State) : ∀ c i, exec (.cset c i) s = execCset c i s := fun _ _ => rfl
theorem exec_csetReg (s : State) : ∀ c a, exec (.csetReg c a) s = execCsetReg c a s := fun _ _ => rfl
theorem exec_crd (s : State) : ∀ d c, exec (.crd d c) s = execCrd d c s := fun _ _ => rfl
theorem exec_fenceC (s : State) : ∀ p q, exec (.fenceC p q) s = execFenceC p q s := fun _ _ => rfl
theorem exec_fenceS (s : State) : ∀ p q, exec (.fenceS p q) s = execFenceS p q s := fun _ _ => rfl
theorem exec_fenceD (s : State) : ∀ p q, exec (.fenceD p q) s = execFenceD p q s := fun _ _ => rfl
theorem exec_fenceP (s : State) : ∀ p q, exec (.fenceP p q) s = execFenceP p q s := fun _ _ => rfl
theorem exec_fenceY (s : State) : ∀ p q, exec (.fenceY p q) s = execFenceY p q s := fun _ _ => rfl
theorem exec_afence (s : State) : exec (.afence) s = execAfence s := rfl
theorem exec_ifence (s : State) : exec (.ifence) s = execIfence s := rfl
theorem exec_aadd (s : State) : ∀ d a b z, exec (.aadd d a b z) s = execAadd d a b z s := fun _ _ _ _ => rfl
theorem exec_aand (s : State) : ∀ d a b z, exec (.aand d a b z) s = execAand d a b z s := fun _ _ _ _ => rfl
theorem exec_aor (s : State) : ∀ d a b z, exec (.aor d a b z) s = execAor d a b z s := fun _ _ _ _ => rfl
theorem exec_axor (s : State) : ∀ d a b z, exec (.axor d a b z) s = execAxor d a b z s := fun _ _ _ _ => rfl
theorem exec_amin (s : State) : ∀ d a b z, exec (.amin d a b z) s = execAmin d a b z s := fun _ _ _ _ => rfl
theorem exec_amax (s : State) : ∀ d a b z, exec (.amax d a b z) s = execAmax d a b z s := fun _ _ _ _ => rfl
theorem exec_aminu (s : State) : ∀ d a b z, exec (.aminu d a b z) s = execAminu d a b z s := fun _ _ _ _ => rfl
theorem exec_amaxu (s : State) : ∀ d a b z, exec (.amaxu d a b z) s = execAmaxu d a b z s := fun _ _ _ _ => rfl
theorem exec_aswp (s : State) : ∀ d a b z, exec (.aswp d a b z) s = execAswp d a b z s := fun _ _ _ _ => rfl
theorem exec_acas (s : State) : ∀ d a b z, exec (.acas d a b z) s = execAcas d a b z s := fun _ _ _ _ => rfl
theorem exec_afadd (s : State) : ∀ d a b z, exec (.afadd d a b z) s = execAfadd d a b z s := fun _ _ _ _ => rfl
theorem exec_afmin (s : State) : ∀ d a b z, exec (.afmin d a b z) s = execAfmin d a b z s := fun _ _ _ _ => rfl
theorem exec_afmax (s : State) : ∀ d a b z, exec (.afmax d a b z) s = execAfmax d a b z s := fun _ _ _ _ => rfl
theorem exec_radd (s : State) : ∀ a b z, exec (.radd a b z) s = execRadd a b z s := fun _ _ _ => rfl
theorem exec_aaddTz (s : State) : ∀ d a b k, exec (.aaddTz d a b k) s = execAaddTz d a b k s := fun _ _ _ _ => rfl
theorem exec_raddTz (s : State) : ∀ a b k, exec (.raddTz a b k) s = execRaddTz a b k s := fun _ _ _ => rfl
theorem exec_ulmAtomic (s : State) : ∀ core, exec (.ulmAtomic core) s = execUlmAtomic core s := fun _ => rfl
theorem exec_houseAtomic (s : State) : ∀ id, exec (.houseAtomic id) s = execHouseAtomic id s := fun _ => rfl
theorem exec_atomicReply (s : State) : ∀ id, exec (.atomicReply id) s = execAtomicReply id s := fun _ => rfl
theorem exec_send (s : State) : ∀ d a k, exec (.send d a k) s = execSend d a k s := fun _ _ _ => rfl
theorem exec_sendL (s : State) : ∀ d b k a n r, exec (.sendL d b k a n r) s = execSendL d b k a n r s := fun _ _ _ _ _ _ => rfl
theorem exec_bind (s : State) : ∀ d a i, exec (.bind d a i) s = execBind d a i s := fun _ _ _ => rfl
theorem exec_rebind (s : State) : ∀ d a i, exec (.rebind d a i) s = execRebind d a i s := fun _ _ _ => rfl
theorem exec_unbind (s : State) : ∀ a, exec (.unbind a) s = execUnbind a s := fun _ => rfl
theorem exec_spawn (s : State) : ∀ d a b, exec (.spawn d a b) s = execSpawn d a b s := fun _ _ _ => rfl
theorem exec_launch (s : State) : ∀ d a b, exec (.launch d a b) s = execLaunch d a b s := fun _ _ _ => rfl
theorem exec_join (s : State) : ∀ a, exec (.join a) s = execJoin a s := fun _ => rfl
theorem exec_leave (s : State) : ∀ a, exec (.leave a) s = execLeave a s := fun _ => rfl
theorem exec_barw (s : State) : ∀ a, exec (.barw a) s = execBarw a s := fun _ => rfl
theorem exec_bara (s : State) : ∀ a, exec (.bara a) s = execBara a s := fun _ => rfl
theorem exec_bard (s : State) : ∀ a, exec (.bard a) s = execBard a s := fun _ => rfl
theorem exec_barq (s : State) : ∀ d a, exec (.barq d a) s = execBarq d a s := fun _ _ => rfl
theorem exec_quiesce (s : State) : exec (.quiesce) s = execQuiesce s := rfl
theorem exec_groupRequest (s : State) : ∀ id, exec (.groupRequest id) s = execGroupRequest id s := fun _ => rfl
theorem exec_groupAnswer (s : State) : ∀ id, exec (.groupAnswer id) s = execGroupAnswer id s := fun _ => rfl
theorem exec_fadd (s : State) : ∀ d a b t r, exec (.fadd d a b t r) s = execFadd d a b t r s := fun _ _ _ _ _ => rfl
theorem exec_fsub (s : State) : ∀ d a b t r, exec (.fsub d a b t r) s = execFsub d a b t r s := fun _ _ _ _ _ => rfl
theorem exec_fmul (s : State) : ∀ d a b t r, exec (.fmul d a b t r) s = execFmul d a b t r s := fun _ _ _ _ _ => rfl
theorem exec_fdiv (s : State) : ∀ d a b t r, exec (.fdiv d a b t r) s = execFdiv d a b t r s := fun _ _ _ _ _ => rfl
theorem exec_fsqrt (s : State) : ∀ d a t r, exec (.fsqrt d a t r) s = execFsqrt d a t r s := fun _ _ _ _ => rfl
theorem exec_fma (s : State) : ∀ d a b t r, exec (.fma d a b t r) s = execFma d a b t r s := fun _ _ _ _ _ => rfl
theorem exec_fnma (s : State) : ∀ d a b t r, exec (.fnma d a b t r) s = execFnma d a b t r s := fun _ _ _ _ _ => rfl
theorem exec_fmin (s : State) : ∀ d a b t, exec (.fmin d a b t) s = execFmin d a b t s := fun _ _ _ _ => rfl
theorem exec_fmax (s : State) : ∀ d a b t, exec (.fmax d a b t) s = execFmax d a b t s := fun _ _ _ _ => rfl
theorem exec_fcmp (s : State) : ∀ d a b t, exec (.fcmp d a b t) s = execFcmp d a b t s := fun _ _ _ _ => rfl
theorem exec_fclass (s : State) : ∀ d a t, exec (.fclass d a t) s = execFclass d a t s := fun _ _ _ => rfl
theorem exec_fmvxJ (s : State) : ∀ d a b t, exec (.fmvxJ d a b t) s = execFmvxJ d a b t s := fun _ _ _ _ => rfl
theorem exec_fmvxN (s : State) : ∀ d a b t, exec (.fmvxN d a b t) s = execFmvxN d a b t s := fun _ _ _ _ => rfl
theorem exec_fmvxX (s : State) : ∀ d a b t, exec (.fmvxX d a b t) s = execFmvxX d a b t s := fun _ _ _ _ => rfl
theorem exec_fcvt (s : State) : ∀ d a p q r, exec (.fcvt d a p q r) s = execFcvt d a p q r s := fun _ _ _ _ _ => rfl
theorem exec_fcvtInt (s : State) : ∀ d a p q r, exec (.fcvtInt d a p q r) s = execFcvtInt d a p q r s := fun _ _ _ _ _ => rfl
theorem exec_fcvtf (s : State) : ∀ d a p q r, exec (.fcvtf d a p q r) s = execFcvtf d a p q r s := fun _ _ _ _ _ => rfl
theorem exec_vadd (s : State) : ∀ d a b w m e, exec (.vadd d a b w m e) s = execVadd d a b w m e s := fun _ _ _ _ _ _ => rfl
theorem exec_vsub (s : State) : ∀ d a b w m e, exec (.vsub d a b w m e) s = execVsub d a b w m e s := fun _ _ _ _ _ _ => rfl
theorem exec_vmul (s : State) : ∀ d a b w m e, exec (.vmul d a b w m e) s = execVmul d a b w m e s := fun _ _ _ _ _ _ => rfl
theorem exec_vmulh (s : State) : ∀ d a b w m e, exec (.vmulh d a b w m e) s = execVmulh d a b w m e s := fun _ _ _ _ _ _ => rfl
theorem exec_vmin (s : State) : ∀ d a b w m e, exec (.vmin d a b w m e) s = execVmin d a b w m e s := fun _ _ _ _ _ _ => rfl
theorem exec_vmax (s : State) : ∀ d a b w m e, exec (.vmax d a b w m e) s = execVmax d a b w m e s := fun _ _ _ _ _ _ => rfl
theorem exec_vminu (s : State) : ∀ d a b w m e, exec (.vminu d a b w m e) s = execVminu d a b w m e s := fun _ _ _ _ _ _ => rfl
theorem exec_vmaxu (s : State) : ∀ d a b w m e, exec (.vmaxu d a b w m e) s = execVmaxu d a b w m e s := fun _ _ _ _ _ _ => rfl
theorem exec_vand (s : State) : ∀ d a b w m e, exec (.vand d a b w m e) s = execVand d a b w m e s := fun _ _ _ _ _ _ => rfl
theorem exec_vor (s : State) : ∀ d a b w m e, exec (.vor d a b w m e) s = execVor d a b w m e s := fun _ _ _ _ _ _ => rfl
theorem exec_vxor (s : State) : ∀ d a b w m e, exec (.vxor d a b w m e) s = execVxor d a b w m e s := fun _ _ _ _ _ _ => rfl
theorem exec_vshl (s : State) : ∀ d a b w m e, exec (.vshl d a b w m e) s = execVshl d a b w m e s := fun _ _ _ _ _ _ => rfl
theorem exec_vshr (s : State) : ∀ d a b w m e, exec (.vshr d a b w m e) s = execVshr d a b w m e s := fun _ _ _ _ _ _ => rfl
theorem exec_vsra (s : State) : ∀ d a b w m e, exec (.vsra d a b w m e) s = execVsra d a b w m e s := fun _ _ _ _ _ _ => rfl
theorem exec_vfshl (s : State) : ∀ d a b w m e, exec (.vfshl d a b w m e) s = execVfshl d a b w m e s := fun _ _ _ _ _ _ => rfl
theorem exec_vfshr (s : State) : ∀ d a b w m e, exec (.vfshr d a b w m e) s = execVfshr d a b w m e s := fun _ _ _ _ _ _ => rfl
theorem exec_vclz (s : State) : ∀ d a w m e, exec (.vclz d a w m e) s = execVclz d a w m e s := fun _ _ _ _ _ => rfl
theorem exec_vpopc (s : State) : ∀ d a w m e, exec (.vpopc d a w m e) s = execVpopc d a w m e s := fun _ _ _ _ _ => rfl
theorem exec_vabs (s : State) : ∀ d a w m e, exec (.vabs d a w m e) s = execVabs d a w m e s := fun _ _ _ _ _ => rfl
theorem exec_vsadd (s : State) : ∀ d a b w m e, exec (.vsadd d a b w m e) s = execVsadd d a b w m e s := fun _ _ _ _ _ _ => rfl
theorem exec_vssub (s : State) : ∀ d a b w m e, exec (.vssub d a b w m e) s = execVssub d a b w m e s := fun _ _ _ _ _ _ => rfl
theorem exec_vfadd (s : State) : ∀ d a b w r m e, exec (.vfadd d a b w r m e) s = execVfadd d a b w r m e s := fun _ _ _ _ _ _ _ => rfl
theorem exec_vfsub (s : State) : ∀ d a b w r m e, exec (.vfsub d a b w r m e) s = execVfsub d a b w r m e s := fun _ _ _ _ _ _ _ => rfl
theorem exec_vfmul (s : State) : ∀ d a b w r m e, exec (.vfmul d a b w r m e) s = execVfmul d a b w r m e s := fun _ _ _ _ _ _ _ => rfl
theorem exec_vfma (s : State) : ∀ d a b w r m e, exec (.vfma d a b w r m e) s = execVfma d a b w r m e s := fun _ _ _ _ _ _ _ => rfl
theorem exec_vfmin (s : State) : ∀ d a b w m e, exec (.vfmin d a b w m e) s = execVfmin d a b w m e s := fun _ _ _ _ _ _ => rfl
theorem exec_vfmax (s : State) : ∀ d a b w m e, exec (.vfmax d a b w m e) s = execVfmax d a b w m e s := fun _ _ _ _ _ _ => rfl
theorem exec_vfexpn (s : State) : ∀ d a w r m e, exec (.vfexpn d a w r m e) s = execVfexpn d a w r m e s := fun _ _ _ _ _ _ => rfl
theorem exec_vfrcp (s : State) : ∀ d a w r m e, exec (.vfrcp d a w r m e) s = execVfrcp d a w r m e s := fun _ _ _ _ _ _ => rfl
theorem exec_vfcvt (s : State) : ∀ d a sv w r m e, exec (.vfcvt d a sv w r m e) s = execVfcvt d a sv w r m e s := fun _ _ _ _ _ _ _ => rfl
theorem exec_vfcvtFp8 (s : State) : ∀ d a sv w r m e, exec (.vfcvtFp8 d a sv w r m e) s = execVfcvtFp8 d a sv w r m e s := fun _ _ _ _ _ _ _ => rfl
theorem exec_vfcvtInt (s : State) : ∀ d a sv w r m e, exec (.vfcvtInt d a sv w r m e) s = execVfcvtInt d a sv w r m e s := fun _ _ _ _ _ _ _ => rfl
theorem exec_vfcvtUint (s : State) : ∀ d a sv w r m e, exec (.vfcvtUint d a sv w r m e) s = execVfcvtUint d a sv w r m e s := fun _ _ _ _ _ _ _ => rfl
theorem exec_vld (s : State) : ∀ d a e m k, exec (.vld d a e m k) s = execVld d a e m k s := fun _ _ _ _ _ => rfl
theorem exec_vst (s : State) : ∀ a sv w e m k, exec (.vst a sv w e m k) s = execVst a sv w e m k s := fun _ _ _ _ _ _ => rfl
theorem exec_vldu (s : State) : ∀ d a m k, exec (.vldu d a m k) s = execVldu d a m k s := fun _ _ _ _ => rfl
theorem exec_vstu (s : State) : ∀ a sv w m k, exec (.vstu a sv w m k) s = execVstu a sv w m k s := fun _ _ _ _ _ => rfl
theorem exec_vgath (s : State) : ∀ d a sv w e k, exec (.vgath d a sv w e k) s = execVgath d a sv w e k s := fun _ _ _ _ _ _ => rfl
theorem exec_vscat (s : State) : ∀ d a sv w e k, exec (.vscat d a sv w e k) s = execVscat d a sv w e k s := fun _ _ _ _ _ _ => rfl
theorem exec_vbcast (s : State) : ∀ d a e i, exec (.vbcast d a e i) s = execVbcast d a e i s := fun _ _ _ _ => rfl
theorem exec_vperm (s : State) : ∀ d a b w m e, exec (.vperm d a b w m e) s = execVperm d a b w m e s := fun _ _ _ _ _ _ => rfl
theorem exec_vredadd (s : State) : ∀ d a w m e, exec (.vredadd d a w m e) s = execVredadd d a w m e s := fun _ _ _ _ _ => rfl
theorem exec_vredmax (s : State) : ∀ d a w m e, exec (.vredmax d a w m e) s = execVredmax d a w m e s := fun _ _ _ _ _ => rfl
theorem exec_vredmin (s : State) : ∀ d a w m e, exec (.vredmin d a w m e) s = execVredmin d a w m e s := fun _ _ _ _ _ => rfl
theorem exec_vgmax (s : State) : ∀ d g a w m e, exec (.vgmax d g a w m e) s = execVgmax d g a w m e s := fun _ _ _ _ _ _ => rfl
theorem exec_vgmin (s : State) : ∀ d g a w m e, exec (.vgmin d g a w m e) s = execVgmin d g a w m e s := fun _ _ _ _ _ _ => rfl
theorem exec_vscan (s : State) : ∀ d a w m e, exec (.vscan d a w m e) s = execVscan d a w m e s := fun _ _ _ _ _ => rfl
theorem exec_vsel (s : State) : ∀ d a b w m e, exec (.vsel d a b w m e) s = execVsel d a b w m e s := fun _ _ _ _ _ _ => rfl
theorem exec_vcmp (s : State) : ∀ d c a b w m e, exec (.vcmp d c a b w m e) s = execVcmp d c a b w m e s := fun _ _ _ _ _ _ _ => rfl
theorem exec_mand (s : State) : ∀ d a b, exec (.mand d a b) s = execMand d a b s := fun _ _ _ => rfl
theorem exec_mor (s : State) : ∀ d a b, exec (.mor d a b) s = execMor d a b s := fun _ _ _ => rfl
theorem exec_mxor (s : State) : ∀ d a b, exec (.mxor d a b) s = execMxor d a b s := fun _ _ _ => rfl
theorem exec_mnot (s : State) : ∀ d a, exec (.mnot d a) s = execMnot d a s := fun _ _ => rfl
theorem exec_vslide (s : State) : ∀ d a sv w e k, exec (.vslide d a sv w e k) s = execVslide d a sv w e k s := fun _ _ _ _ _ _ => rfl
theorem exec_vmovx (s : State) : ∀ d l sv w e, exec (.vmovx d l sv w e) s = execVmovx d l sv w e s := fun _ _ _ _ _ => rfl
theorem exec_vins (s : State) : ∀ d l a e, exec (.vins d l a e) s = execVins d l a e s := fun _ _ _ _ => rfl
theorem exec_mpop (s : State) : ∀ d sv, exec (.mpop d sv) s = execMpop d sv s := fun _ _ => rfl
theorem exec_mfirst (s : State) : ∀ d sv, exec (.mfirst d sv) s = execMfirst d sv s := fun _ _ => rfl
theorem exec_mgen (s : State) : ∀ d a, exec (.mgen d a) s = execMgen d a s := fun _ _ => rfl
theorem exec_tdecl (s : State) : ∀ f a t u, exec (.tdecl f a t u) s = execTdecl f a t u s := fun _ _ _ _ => rfl
theorem exec_tfree (s : State) : ∀ t u, exec (.tfree t u) s = execTfree t u s := fun _ _ => rfl
theorem exec_tgive (s : State) : ∀ a t u, exec (.tgive a t u) s = execTgive a t u s := fun _ _ _ => rfl
theorem exec_ttake (s : State) : ∀ t u, exec (.ttake t u) s = execTtake t u s := fun _ _ => rfl
theorem exec_twait (s : State) : ∀ t u, exec (.twait t u) s = execTwait t u s := fun _ _ => rfl
theorem exec_tstat (s : State) : ∀ d u, exec (.tstat d u) s = execTstat d u s := fun _ _ => rfl
theorem exec_tfmt (s : State) : ∀ a, exec (.tfmt a) s = execTfmt a s := fun _ => rfl
theorem exec_ttrl (s : State) : ∀ t u o, exec (.ttrl t u o) s = execTtrl t u o s := fun _ _ _ => rfl
theorem exec_tsub (s : State) : ∀ a, exec (.tsub a) s = execTsub a s := fun _ => rfl
theorem exec_tqry (s : State) : ∀ d a, exec (.tqry d a) s = execTqry d a s := fun _ _ => rfl
theorem exec_xcopy (s : State) : ∀ a, exec (.xcopy a) s = execXcopy a s := fun _ => rfl
theorem exec_skbc (s : State) : ∀ a b w, exec (.skbc a b w) s = execSkbc a b w s := fun _ _ _ => rfl
theorem exec_xstrm (s : State) : ∀ a b, exec (.xstrm a b) s = execXstrm a b s := fun _ _ => rfl
theorem exec_sbpld (s : State) : ∀ a b, exec (.sbpld a b) s = execSbpld a b s := fun _ _ => rfl
theorem exec_sbprd (s : State) : ∀ d a, exec (.sbprd d a) s = execSbprd d a s := fun _ _ => rfl
theorem exec_segmentPlay (s : State) : ∀ stage stream, exec (.segmentPlay stage stream) s = execSegmentPlay stage stream s := fun _ _ => rfl
theorem exec_segmentReturn (s : State) : ∀ id, exec (.segmentReturn id) s = execSegmentReturn id s := fun _ => rfl
theorem exec_taskStart (s : State) : ∀ stage engine, exec (.taskStart stage engine) s = execTaskStart stage engine s := fun _ _ => rfl
theorem exec_promotionBlock (s : State) : ∀ stage engine, exec (.promotionBlock stage engine) s = execPromotionBlock stage engine s := fun _ _ => rfl
theorem exec_taskComplete (s : State) : ∀ stage engine, exec (.taskComplete stage engine) s = execTaskComplete stage engine s := fun _ _ => rfl
theorem exec_taskDrain (s : State) : ∀ stage engine, exec (.taskDrain stage engine) s = execTaskDrain stage engine s := fun _ _ => rfl
theorem exec_copyCommandStart (s : State) : ∀ stage, exec (.copyCommandStart stage) s = execCopyCommandStart stage s := fun _ => rfl
theorem exec_copyDestinationFill (s : State) : ∀ stage cmd dest, exec (.copyDestinationFill stage cmd dest) s = execCopyDestinationFill stage cmd dest s := fun _ _ _ => rfl
theorem exec_copyCommandComplete (s : State) : ∀ stage cmd, exec (.copyCommandComplete stage cmd) s = execCopyCommandComplete stage cmd s := fun _ _ => rfl
theorem exec_raynew (s : State) : ∀ d a, exec (.raynew d a) s = execRaynew d a s := fun _ _ => rfl
theorem exec_raygo (s : State) : ∀ a, exec (.raygo a) s = execRaygo a s := fun _ => rfl
theorem exec_spsrc (s : State) : ∀ a b, exec (.spsrc a b) s = execSpsrc a b s := fun _ _ => rfl
theorem exec_spins (s : State) : ∀ a b, exec (.spins a b) s = execSpins a b s := fun _ _ => rfl
theorem exec_spsettle (s : State) : ∀ a b, exec (.spsettle a b) s = execSpsettle a b s := fun _ _ => rfl
theorem exec_spdone (s : State) : ∀ a, exec (.spdone a) s = execSpdone a s := fun _ => rfl
theorem exec_sprd (s : State) : ∀ d a b, exec (.sprd d a b) s = execSprd d a b s := fun _ _ _ => rfl
theorem exec_raystop (s : State) : ∀ a, exec (.raystop a) s = execRaystop a s := fun _ => rfl
theorem exec_rayfree (s : State) : ∀ a, exec (.rayfree a) s = execRayfree a s := fun _ => rfl
theorem exec_rayUnitReply (s : State) : ∀ id, exec (.rayUnitReply id) s = execRayUnitReply id s := fun _ => rfl
theorem exec_walkerStep (s : State) : ∀ stage slot, exec (.walkerStep stage slot) s = execWalkerStep stage slot s := fun _ _ => rfl
theorem exec_walkerFetch (s : State) : ∀ stage slot, exec (.walkerFetch stage slot) s = execWalkerFetch stage slot s := fun _ _ => rfl
theorem exec_travAbort (s : State) : ∀ stage ctx, exec (.travAbort stage ctx) s = execTravAbort stage ctx s := fun _ _ => rfl
theorem exec_travReset (s : State) : ∀ stage ctx, exec (.travReset stage ctx) s = execTravReset stage ctx s := fun _ _ => rfl
theorem exec_travSdfWrite (s : State) : ∀ stage value, exec (.travSdfWrite stage value) s = execTravSdfWrite stage value s := fun _ _ => rfl
theorem exec_vbmin (s : State) : ∀ d a b, exec (.vbmin d a b) s = execVbmin d a b s := fun _ _ _ => rfl
theorem exec_wgemit (s : State) : ∀ a b, exec (.wgemit a b) s = execWgemit a b s := fun _ _ => rfl
theorem exec_wgfin (s : State) : ∀ a, exec (.wgfin a) s = execWgfin a s := fun _ => rfl
theorem exec_rasterRecord (s : State) : ∀ die unit queue, exec (.rasterRecord die unit queue) s = execRasterRecord die unit queue s := fun _ _ _ => rfl
theorem exec_rasterQueueComplete (s : State) : ∀ die unit queue, exec (.rasterQueueComplete die unit queue) s = execRasterQueueComplete die unit queue s := fun _ _ _ => rfl
theorem exec_csrr (s : State) : ∀ d n, exec (.csrr d n) s = execCsrr d n s := fun _ _ => rfl
theorem exec_csrw (s : State) : ∀ a n, exec (.csrw a n) s = execCsrw a n s := fun _ _ => rfl
theorem exec_csrx (s : State) : ∀ d a n, exec (.csrx d a n) s = execCsrx d a n s := fun _ _ _ => rfl
theorem exec_hcall (s : State) : ∀ n, exec (.hcall n) s = execHcall n s := fun _ => rfl
theorem exec_eret (s : State) : exec (.eret) s = execEret s := rfl
theorem exec_wfi (s : State) : exec (.wfi) s = execWfi s := rfl
theorem exec_tlbw (s : State) : ∀ a b, exec (.tlbw a b) s = execTlbw a b s := fun _ _ => rfl
theorem exec_tlbi (s : State) : ∀ a, exec (.tlbi a) s = execTlbi a s := fun _ => rfl
theorem exec_tlbp (s : State) : ∀ d a, exec (.tlbp d a) s = execTlbp d a s := fun _ _ => rfl
theorem exec_ctxsv (s : State) : ∀ a, exec (.ctxsv a) s = execCtxsv a s := fun _ => rfl
theorem exec_ctxld (s : State) : ∀ a, exec (.ctxld a) s = execCtxld a s := fun _ => rfl
theorem exec_snap (s : State) : ∀ d, exec (.snap d) s = execSnap d s := fun _ => rfl
theorem exec_curtainTimeout (s : State) : ∀ block, exec (.curtainTimeout block) s = execCurtainTimeout block s := fun _ => rfl
theorem exec_curtainFall (s : State) : exec (.curtainFall) s = execCurtainFall s := rfl
theorem exec_cMov (s : State) : ∀ a b, exec (.cMov a b) s = execCMov a b s := fun _ _ => rfl
theorem exec_cAdd (s : State) : ∀ a b, exec (.cAdd a b) s = execCAdd a b s := fun _ _ => rfl
theorem exec_cSub (s : State) : ∀ a b, exec (.cSub a b) s = execCSub a b s := fun _ _ => rfl
theorem exec_cAddi (s : State) : ∀ a i, exec (.cAddi a i) s = execCAddi a i s := fun _ _ => rfl
theorem exec_cLdi (s : State) : ∀ a i, exec (.cLdi a i) s = execCLdi a i s := fun _ _ => rfl
theorem exec_cLw (s : State) : ∀ a b i, exec (.cLw a b i) s = execCLw a b i s := fun _ _ _ => rfl
theorem exec_cSw (s : State) : ∀ a b i, exec (.cSw a b i) s = execCSw a b i s := fun _ _ _ => rfl
theorem exec_cBeqz (s : State) : ∀ a i, exec (.cBeqz a i) s = execCBeqz a i s := fun _ _ => rfl
theorem exec_cBnez (s : State) : ∀ a i, exec (.cBnez a i) s = execCBnez a i s := fun _ _ => rfl
theorem exec_cJ (s : State) : ∀ i, exec (.cJ i) s = execCJ i s := fun _ => rfl
theorem exec_cCwait (s : State) : ∀ c i, exec (.cCwait c i) s = execCCwait c i s := fun _ _ => rfl
theorem exec_cNop (s : State) : exec (.cNop) s = execCNop s := rfl
theorem exec_cDone (s : State) : exec (.cDone) s = execCDone s := rfl
theorem exec_cRet (s : State) : exec (.cRet) s = execCRet s := rfl
theorem exec_messageArrival (s : State) : ∀ id, exec (.messageArrival id) s = execMessageArrival id s := fun _ => rfl
theorem exec_messageRetry (s : State) : ∀ id, exec (.messageRetry id) s = execMessageRetry id s := fun _ => rfl
theorem exec_unboundTimeout (s : State) : ∀ id, exec (.unboundTimeout id) s = execUnboundTimeout id s := fun _ => rfl
theorem exec_messageDequeue (s : State) : ∀ core, exec (.messageDequeue core) s = execMessageDequeue core s := fun _ => rfl
theorem exec_startMessage (s : State) : ∀ id, exec (.startMessage id) s = execStartMessage id s := fun _ => rfl
theorem exec_spawnRequest (s : State) : ∀ id, exec (.spawnRequest id) s = execSpawnRequest id s := fun _ => rfl
theorem exec_spawnAnswer (s : State) : ∀ id, exec (.spawnAnswer id) s = execSpawnAnswer id s := fun _ => rfl
theorem exec_counterBump (s : State) : ∀ id, exec (.counterBump id) s = execCounterBump id s := fun _ => rfl
theorem exec_handlerBudget (s : State) : ∀ core, exec (.handlerBudget core) s = execHandlerBudget core s := fun _ => rfl
theorem exec_blockSwap (s : State) : ∀ core, exec (.blockSwap core) s = execBlockSwap core s := fun _ => rfl
theorem exec_quantumSwap (s : State) : ∀ core, exec (.quantumSwap core) s = execQuantumSwap core s := fun _ => rfl
theorem exec_slotSwapComplete (s : State) : ∀ core, exec (.slotSwapComplete core) s = execSlotSwapComplete core s := fun _ => rfl
theorem exec_divideComplete (s : State) : ∀ id, exec (.divideComplete id) s = execDivideComplete id s := fun _ => rfl
theorem exec_mapAccess (s : State) : ∀ id, exec (.mapAccess id) s = execMapAccess id s := fun _ => rfl
theorem exec_loadReply (s : State) : ∀ id, exec (.loadReply id) s = execLoadReply id s := fun _ => rfl
theorem exec_dqEntryStart (s : State) : ∀ core, exec (.dqEntryStart core) s = execDqEntryStart core s := fun _ => rfl
theorem exec_dqEntryComplete (s : State) : ∀ core entry, exec (.dqEntryComplete core entry) s = execDqEntryComplete core entry s := fun _ _ => rfl
theorem exec_dqAccessFault (s : State) : ∀ core entry, exec (.dqAccessFault core entry) s = execDqAccessFault core entry s := fun _ _ => rfl
theorem exec_dqFaultRecordWrite (s : State) : ∀ core, exec (.dqFaultRecordWrite core) s = execDqFaultRecordWrite core s := fun _ => rfl
theorem exec_dqFaultClear (s : State) : ∀ core, exec (.dqFaultClear core) s = execDqFaultClear core s := fun _ => rfl
theorem exec_deferredTrap (s : State) : ∀ core ctx, exec (.deferredTrap core ctx) s = execDeferredTrap core ctx s := fun _ _ => rfl
theorem exec_watchdog (s : State) : ∀ core, exec (.watchdog core) s = execWatchdog core s := fun _ => rfl
theorem exec_scopeMiss (s : State) : ∀ id, exec (.scopeMiss id) s = execScopeMiss id s := fun _ => rfl
theorem exec_translationTimeout (s : State) : ∀ id, exec (.translationTimeout id) s = execTranslationTimeout id s := fun _ => rfl
theorem exec_faultClimb (s : State) : ∀ id, exec (.faultClimb id) s = execFaultClimb id s := fun _ => rfl
theorem exec_pagerWake (s : State) : ∀ part ctx page deny, exec (.pagerWake part ctx page deny) s = execPagerWake part ctx page deny s := fun _ _ _ _ => rfl
theorem exec_routerWake (s : State) : ∀ id, exec (.routerWake id) s = execRouterWake id s := fun _ => rfl
theorem exec_agentWake (s : State) : ∀ id, exec (.agentWake id) s = execAgentWake id s := fun _ => rfl
theorem exec_queueRecordWrite (s : State) : ∀ id, exec (.queueRecordWrite id) s = execQueueRecordWrite id s := fun _ => rfl
theorem exec_pgqWrite (s : State) : ∀ id, exec (.pgqWrite id) s = execPgqWrite id s := fun _ => rfl
theorem exec_hostLaunchRecord (s : State) : ∀ id, exec (.hostLaunchRecord id) s = execHostLaunchRecord id s := fun _ => rfl
theorem exec_headerRead (s : State) : ∀ id, exec (.headerRead id) s = execHeaderRead id s := fun _ => rfl
theorem exec_kernelPlacement (s : State) : ∀ id, exec (.kernelPlacement id) s = execKernelPlacement id s := fun _ => rfl
theorem exec_kernelRetire (s : State) : ∀ id, exec (.kernelRetire id) s = execKernelRetire id s := fun _ => rfl
theorem exec_gateAdmit (s : State) : ∀ die, exec (.gateAdmit die) s = execGateAdmit die s := fun _ => rfl
theorem exec_rampEnd (s : State) : ∀ die, exec (.rampEnd die) s = execRampEnd die s := fun _ => rfl
theorem exec_didtLimitWrite (s : State) : ∀ die value, exec (.didtLimitWrite die value) s = execDidtLimitWrite die value s := fun _ _ => rfl
theorem exec_engRampWrite (s : State) : ∀ die value, exec (.engRampWrite die value) s = execEngRampWrite die value s := fun _ _ => rfl
theorem exec_quiescenceDetected (s : State) : ∀ part, exec (.quiescenceDetected part) s = execQuiescenceDetected part s := fun _ => rfl
theorem exec_quiesceProbe (s : State) : ∀ part, exec (.quiesceProbe part) s = execQuiesceProbe part s := fun _ => rfl
theorem exec_preemptCommand (s : State) : ∀ part, exec (.preemptCommand part) s = execPreemptCommand part s := fun _ => rfl
theorem exec_preemptSave (s : State) : ∀ part, exec (.preemptSave part) s = execPreemptSave part s := fun _ => rfl
theorem exec_restoreCommand (s : State) : ∀ part, exec (.restoreCommand part) s = execRestoreCommand part s := fun _ => rfl
theorem exec_loopDepthWrite (s : State) : ∀ core ctx value, exec (.loopDepthWrite core ctx value) s = execLoopDepthWrite core ctx value s := fun _ _ _ => rfl
theorem exec_bankFmtWrite (s : State) : ∀ core bank value, exec (.bankFmtWrite core bank value) s = execBankFmtWrite core bank value s := fun _ _ _ => rfl
theorem exec_registerWrite (s : State) : ∀ addr value, exec (.registerWrite addr value) s = execRegisterWrite addr value s := fun _ _ => rfl
theorem exec_dramRead (s : State) : ∀ addr gran tol, exec (.dramRead addr gran tol) s = execDramRead addr gran tol s := fun _ _ _ => rfl
theorem exec_dramWrite (s : State) : ∀ addr gran tol n value, exec (.dramWrite addr gran tol n value) s = execDramWrite addr gran tol n value s := fun _ _ _ _ _ => rfl
theorem exec_periodicRefresh (s : State) : ∀ stack bank, exec (.periodicRefresh stack bank) s = execPeriodicRefresh stack bank s := fun _ _ => rfl
theorem exec_rfmLevelWrite (s : State) : ∀ stack value, exec (.rfmLevelWrite stack value) s = execRfmLevelWrite stack value s := fun _ _ => rfl
theorem exec_rfmCreditWrite (s : State) : ∀ stack value, exec (.rfmCreditWrite stack value) s = execRfmCreditWrite stack value s := fun _ _ => rfl
theorem exec_compressionResetNotice (s : State) : ∀ core, exec (.compressionResetNotice core) s = execCompressionResetNotice core s := fun _ => rfl
theorem exec_flitReplay (s : State) : ∀ port, exec (.flitReplay port) s = execFlitReplay port s := fun _ => rfl
theorem exec_linkRetrain (s : State) : ∀ port, exec (.linkRetrain port) s = execLinkRetrain port s := fun _ => rfl
theorem exec_linkRetrainEnd (s : State) : ∀ port, exec (.linkRetrainEnd port) s = execLinkRetrainEnd port s := fun _ => rfl
theorem exec_peerRequest (s : State) : ∀ port, exec (.peerRequest port) s = execPeerRequest port s := fun _ => rfl
theorem exec_coldStart (s : State) : exec (.coldStart) s = execColdStart s := rfl
theorem exec_warmStart (s : State) : exec (.warmStart) s = execWarmStart s := rfl
theorem exec_liveUpdate (s : State) : exec (.liveUpdate) s = execLiveUpdate s := rfl
theorem exec_telemetryRecord (s : State) : ∀ die, exec (.telemetryRecord die) s = execTelemetryRecord die s := fun _ => rfl
theorem exec_illegalInstruction (s : State) : exec (.illegalInstruction) s = execIllegalInstruction s := rfl
theorem exec_wfiEndWithoutEvent (s : State) : ∀ core ctx, exec (.wfiEndWithoutEvent core ctx) s = execWfiEndWithoutEvent core ctx s := fun _ _ => rfl
theorem exec_attestationQuote (s : State) : ∀ nonce, exec (.attestationQuote nonce) s = execAttestationQuote nonce s := fun _ => rfl
theorem exec_orderlyShutdown (s : State) : exec (.orderlyShutdown) s = execOrderlyShutdown s := rfl
theorem exec_partitionReset (s : State) : ∀ part, exec (.partitionReset part) s = execPartitionReset part s := fun _ => rfl

end Sys2Proof.Machine
end

