-- ==== Sys2Proof/Laws/Memory.lean ====
section
/-!
SUPPORT. Memory.lean: what the operations on ULM and DRAM do to a byte, and that each keeps the canonical form.
-/

namespace Sys2Proof.Machine

theorem storeBytes_wf {m : List Host.Cell} (a : Nat) (bs : List Byte) (h : Memory.wf m = true) :
    Memory.wf (storeBytes m a bs) = true := by
  induction bs generalizing m a with
  | nil => exact h
  | cons b bs ih => exact ih (a + 1) (Assoc.wf_put a b h)

theorem get_storeBytes (m : List Host.Cell) (a : Nat) (bs : List Byte) (x : Nat) :
    Assoc.get 0#8 (storeBytes m a bs) x = if a ≤ x ∧ x < a + bs.length then bs.getD (x - a) 0#8 else Assoc.get 0#8 m x := by
  induction bs generalizing m a with
  | nil => rw [storeBytes, if_neg]; simp only [List.length_nil]; omega
  | cons b bs ih =>
    rw [storeBytes, ih, Assoc.get_put]
    by_cases h : x = a
    · subst h
      rw [if_neg (by omega), if_pos rfl, if_pos (by simp)]
      simp
    · by_cases h1 : a + 1 ≤ x ∧ x < a + 1 + bs.length
      · have h2 : a ≤ x ∧ x < a + (b :: bs).length := by simp; omega
        obtain ⟨k, hk⟩ : ∃ k, x - a = k + 1 := ⟨x - a - 1, by omega⟩
        rw [if_pos h1, if_pos h2, hk, show x - (a + 1) = k by omega, List.getD_cons_succ]
      · have h2 : ¬ (a ≤ x ∧ x < a + (b :: bs).length) := by simp; omega
        rw [if_neg h1, if_neg h2, if_neg (by omega)]

theorem filter_wf {m : List Host.Cell} (p : Host.Cell → Bool) (h : Memory.wf m = true) : Memory.wf (m.filter p) = true := by
  induction m with
  | nil => exact h
  | cons e m ih =>
    obtain ⟨h1, h2, h3⟩ := Assoc.wf_cons.mp h
    rw [List.filter_cons]
    split
    · refine Assoc.wf_cons.mpr ⟨h1, ?_, ih h3⟩
      intro x hx
      exact h2 x (List.mem_filter.mp hx).1
    · exact ih h3

theorem State.reset_memoryOk : State.reset.memoryOk := ⟨rfl, rfl⟩

theorem State.writeBytes_memoryOk {s : State} (a : Nat) (bs : List Byte) (h : s.memoryOk) : (s.writeBytes a bs).memoryOk :=
  ⟨storeBytes_wf a bs h.1, h.2⟩

theorem State.writeTagged_memoryOk {s : State} (a : Nat) (bs : List Byte) (tag : Bool) (h : s.memoryOk) :
    (s.writeTagged a bs tag).memoryOk := by
  unfold State.writeTagged
  cases tag
  · exact s.writeBytes_memoryOk a bs h
  · exact s.writeBytes_memoryOk a bs h

theorem State.readByte_writeBytes (s : State) (a : Nat) (bs : List Byte) (x : Nat) :
    (s.writeBytes a bs).readByte x = if a ≤ x ∧ x < a + bs.length then bs.getD (x - a) 0#8 else s.readByte x :=
  get_storeBytes s.mem a bs x

theorem State.readByte_writeTagged (s : State) (a : Nat) (bs : List Byte) (tag : Bool) (x : Nat) :
    (s.writeTagged a bs tag).readByte x = if a ≤ x ∧ x < a + bs.length then bs.getD (x - a) 0#8 else s.readByte x := by
  unfold State.writeTagged
  cases tag <;> exact s.readByte_writeBytes a bs x

theorem State.restoreByte_memoryOk {s : State} (p : Partition) (i : Nat) (b : Byte) (h : s.memoryOk) :
    (s.restoreByte p i b).memoryOk := by
  unfold State.restoreByte
  cases p.savedUlm i with
  | none => exact h
  | some a => exact ⟨Assoc.wf_put a b h.1, h.2⟩

theorem State.scrub_memoryOk {s : State} (p : DramAt) (h : s.memoryOk) : (s.scrub p).memoryOk :=
  ⟨h.1, storeBytes_wf p.base _ h.2⟩

theorem State.openBanks_memoryOk {s : State} (p : DramAt) (h : s.memoryOk) : (s.openBanks p).memoryOk := h

theorem State.remap_memoryOk {s : State} (p : DramAt) (h : s.memoryOk) : (s.remap p).memoryOk :=
  ⟨h.1, storeBytes_wf p.base _ h.2⟩

theorem State.readGranule_memoryOk {s : State} (p : DramAt) (h : s.memoryOk) : (s.readGranule p).2.memoryOk := by
  have h : (s.openBanks p).memoryOk := State.openBanks_memoryOk p h
  unfold State.readGranule
  dsimp only
  split
  · split
    · exact h
    · exact State.remap_memoryOk p h
  · split
    · exact h
    · split
      · exact h
      · exact State.scrub_memoryOk (s := _) p h

theorem State.openDram_memoryOk {s : State} (p : DramAt) (h : s.memoryOk) : (s.openDram p).2.memoryOk := by
  unfold State.openDram
  split
  · exact State.readGranule_memoryOk p h
  · unfold State.refused
    split
    · exact h
    · exact h

theorem State.readAlias_memoryOk {s : State} (joined : Bool) (p : DramAt) (i : Nat) (h : s.memoryOk) :
    (s.readAlias joined p i).2.memoryOk := by
  unfold State.readAlias
  dsimp only
  split
  · exact h
  · exact h

theorem State.readAliases_memoryOk {s : State} (joined : Bool) (p : DramAt) (l : List Nat) (h : s.memoryOk) :
    (s.readAliases joined p l).2.memoryOk := by
  induction l generalizing s with
  | nil => exact h
  | cons i l ih => exact ih (State.readAlias_memoryOk joined p i h)

theorem State.dramRead_memoryOk {s : State} (joined : Bool) (p : DramAt) (n : Nat) (h : s.memoryOk) :
    (s.dramRead joined p n).2.memoryOk := by
  have o := State.openDram_memoryOk p h
  unfold State.dramRead
  split
  next t e => rw [e] at o; exact State.readAliases_memoryOk joined p _ o
  next e => rw [e] at o; exact o

theorem State.dramStore_memoryOk {s : State} (who : TaskId) (p : DramAt) (bs : List Byte) (h : s.memoryOk) :
    (s.dramStore who p bs).memoryOk := by
  have n : (s.noteWrite who p bs.length).memoryOk := h
  unfold State.dramStore
  dsimp only
  split
  · exact ⟨h.1, storeBytes_wf _ bs (State.scrub_memoryOk (s := s.noteWrite who p bs.length) p n).2⟩
  · exact ⟨h.1, storeBytes_wf _ bs n.2⟩

theorem State.dramWrite_memoryOk {s : State} (who : TaskId) (p : DramAt) (bs : List Byte) (h : s.memoryOk) :
    (s.dramWrite who p bs).2.memoryOk := by
  have o : (if p.tier = 0 ∧ bs.length = granuleBytes p.gran then ((.ok () : Except (BitVec 7) Unit), s.openBanks p)
      else s.openDram p).2.memoryOk := by
    split
    · exact State.openBanks_memoryOk p h
    · exact State.openDram_memoryOk p h
  unfold State.dramWrite
  split
  next t e => rw [e] at o; exact State.dramStore_memoryOk who p bs o
  next e => rw [e] at o; exact o

theorem State.dramModify_memoryOk {s : State} (who : TaskId) (p : DramAt) (n : Nat)
    (f : List Byte → Option (List Byte)) (h : s.memoryOk) : (s.dramModify who p n f).2.memoryOk := by
  have o := State.openDram_memoryOk p h
  unfold State.dramModify
  split
  next t e =>
    rw [e] at o
    dsimp only
    split
    · exact State.dramStore_memoryOk who p _ o
    · exact o
  next e => rw [e] at o; exact o

end Sys2Proof.Machine
end

