-- ==== Sys2Proof/Laws/Shapes.lean ====
section
/-!
SUPPORT. Shapes.lean: what the shared shapes of the instructions answer, one lemma a shape.
-/

namespace Sys2Proof.Machine

/-! ## Int.lean -/

theorem binaryOp_next {f : Word → Word → Word} {d : XName} {a b : Src} {s : State} (hd : s.img.writable d)
    (ha : s.readable a.reg) (hb : s.readable b.reg) :
    binaryOp f d a b s =
      .next (s.completes (s.setImg ((s.img.popped2 a.reg b.reg).putWord d (f (s.img.word a.reg) (s.img.word b.reg))))) := by
  obtain ⟨t, ht, h1, h2, h3⟩ := readSrc2_run ha hb
  obtain ⟨u, hu, g1, g2, g3⟩ := writeWord_run h1 h2 h3 (writable_popped2 hd) (f (s.img.word a.reg) (s.img.word b.reg))
  refine plain_shown (t := u) ?_ g1 g3
  simp only [Op.bind_run, destReady_ok hd, ht]
  exact hu

theorem unaryOp_next {f : Word → Word} {d : XName} {a : Src} {s : State} (hd : s.img.writable d) (ha : s.readable a.reg) :
    unaryOp f d a s = .next (s.completes (s.setImg ((s.img.popped a.reg).putWord d (f (s.img.word a.reg))))) := by
  obtain ⟨t, ht, h1, h2, h3⟩ := readSrc_run ha
  obtain ⟨u, hu, g1, g2, g3⟩ := writeWord_run h1 h2 h3 (writable_popped hd) (f (s.img.word a.reg))
  refine plain_shown (t := u) ?_ g1 g3
  simp only [Op.bind_run, destReady_ok hd, ht]
  exact hu

theorem constOp_next {d : XName} {v : Word} {s : State} (hd : s.img.writable d) :
    plain (do destReady d; writeWord d v) s = .next (s.completes (s.setImg (s.img.putWord d v))) := by
  obtain ⟨u, hu, g1, g2, g3⟩ := writeWord_run (s := s) (State.setImg_self s).symm rfl rfl hd.1 v
  refine plain_shown (t := u) ?_ g1 g3
  simp only [Op.bind_run, destReady_ok hd]
  exact hu

theorem destOp_next {f : Word → Word → Word → Word} {d : XName} {a b : Src} {s : State} (hd : s.img.writable d)
    (ho : s.ordered d.toNat) (ha : s.readable a.reg) (hb : s.readable b.reg) :
    destOp f d a b s = .next (s.completes (s.setImg
      ((s.img.popped2 a.reg b.reg).putWord d (f (s.img.word d) (s.img.word a.reg) (s.img.word b.reg))))) := by
  obtain ⟨t, ht, h1, h2, h3⟩ := readSrc2_run ha hb
  obtain ⟨u, hu, g1, g2, g3⟩ :=
    writeWord_run h1 h2 h3 (writable_popped2 hd) (f (s.img.word d) (s.img.word a.reg) (s.img.word b.reg))
  refine plain_shown (t := u) ?_ g1 g3
  simp only [Op.bind_run, readDest_ok hd ho, ht]
  exact hu

/-- A late destination that no generator serves: none for x0, else marked empty. -/
theorem lateDest_run {s t : State} {c : Context} {d : XName} (ht : t.shown = s.setImg c) (hi : t.img = c) (hc : t.cur = s.cur)
    (hu : c.unbound d) (n : Nat) (signed quad : Bool) :
    ∃ u, lateDest d n signed quad t = .ok (if d = 0#5 then .none else .x d n signed quad, u) ∧
      u.shown = s.setImg (c.emptied d) ∧ u.img = c.emptied d ∧ u.cur = s.cur ∧ (d = 0#5 → u = t) ∧
      (d ≠ 0#5 → u = s.setImg (c.emptied d)) := by
  unfold Context.unbound at hu
  by_cases h0 : d = 0#5
  · subst h0
    exact ⟨t, by simp [lateDest], by simp [Context.emptied, ht], by simp [Context.emptied, hi], hc, fun _ => rfl,
      fun h => absurd rfl h⟩
  · have e : t.setImg (c.emptied d) = s.setImg (c.emptied d) := State.setImg_of_shown ht _
    refine ⟨s.setImg (c.emptied d), ?_, by simp, by simp, rfl, fun h => absurd h h0, fun _ => rfl⟩
    simp [lateDest, h0, hi, hu, markEmpty]
    simpa [Context.emptied, h0] using e

theorem divideOp_next {f : Word → Word → Word} {d : XName} {a b : Src} {s : State} (hd : s.img.writable d)
    (ha : s.readable a.reg) (hb : s.readable b.reg) :
    divideOp f d a b s = .next (s.completes (
      let t := s.setImg ((s.img.popped2 a.reg b.reg).emptied d)
      if d = 0#5 then t
      else t.push ⟨0, s.cur.1, s.cur.2, s.curThread.slot.epoch, none, .core s.cur.1, [],
        .divide (.x d 8 false false) (f (s.img.word a.reg) (s.img.word b.reg))⟩)) := by
  obtain ⟨t, ht, h1, h2, h3⟩ := readSrc2_run ha hb
  obtain ⟨u, hu, g1, g2, g3, g4, g5⟩ := lateDest_run h1 h2 h3 (writable_popped2 (a := a.reg) (b := b.reg) hd) 8 false false
  by_cases h0 : d = 0#5
  · subst h0
    refine plain_shown (t := u) ?_ g1 g3
    simp [destReady_ok hd, ht, hu]
  · simp only [h0, if_false]
    refine plain_ok ?_
    rw [g5 h0] at hu
    simp [destReady_ok hd, ht, hu, h0, pushReq, pushAfter, Context.word]

end Sys2Proof.Machine
end

