-- ==== Sys2Proof/Laws/Trap.lean ====
section
/-!
SUPPORT. Trap.lean: what the ends of an instruction leave alone: a trap, a wait, a completion or a taken transfer changes no
byte of memory, no tag and no request; of the stages a trap changes only the holds of the context that takes it.
-/

namespace Sys2Proof.Machine

variable (s t : State) (core ctx : Nat) (cause : BitVec 7) (pc : Ulm) (addr : Word) (d n : Bool) (w : Wait)

/-- The pieces of a state that no end of an instruction changes. -/
def State.sameStore : Prop :=
  t.mem = s.mem ∧ t.tags = s.tags ∧ t.dram = s.dram ∧ t.reqs = s.reqs ∧ t.cur = s.cur ∧ t.parts = s.parts

theorem State.block_sameStore : s.sameStore (s.block core ctx w) := ⟨rfl, rfl, rfl, rfl, rfl, rfl⟩

theorem State.enterTrap_sameStore : s.sameStore (s.enterTrap core ctx cause pc addr d n) := by
  unfold State.enterTrap
  dsimp only
  split <;> exact ⟨rfl, rfl, rfl, rfl, rfl, rfl⟩

theorem State.pauseBudget_sameStore : s.sameStore (s.pauseBudget core ctx) := by
  unfold State.pauseBudget
  dsimp only
  split
  · split <;> exact ⟨rfl, rfl, rfl, rfl, rfl, rfl⟩
  · exact ⟨rfl, rfl, rfl, rfl, rfl, rfl⟩

theorem State.startCount_sameStore : s.sameStore (s.startCount core ctx) := ⟨rfl, rfl, rfl, rfl, rfl, rfl⟩

theorem State.dropHolds_sameStore : s.sameStore (s.dropHolds core ctx) := by
  unfold State.dropHolds
  dsimp only
  split <;> exact ⟨rfl, rfl, rfl, rfl, rfl, rfl⟩

theorem State.sameStore.trans {s t u : State} (h : s.sameStore t) (k : t.sameStore u) : s.sameStore u :=
  ⟨k.1.trans h.1, k.2.1.trans h.2.1, k.2.2.1.trans h.2.2.1, k.2.2.2.1.trans h.2.2.2.1, k.2.2.2.2.1.trans h.2.2.2.2.1,
    k.2.2.2.2.2.trans h.2.2.2.2.2⟩

theorem State.takeTrap_sameStore : s.sameStore (s.takeTrap core ctx cause pc addr d n) := by
  unfold State.takeTrap
  split
  · exact (((s.enterTrap_sameStore core ctx cause pc addr d n).trans (State.startCount_sameStore _ core ctx)).trans
      (State.pauseBudget_sameStore _ core ctx)).trans (State.dropHolds_sameStore _ core ctx)
  · exact (s.block_sameStore core ctx .retry).trans (State.startCount_sameStore _ core ctx)

theorem State.raise_sameStore : s.sameStore (s.raise core ctx cause addr n) := by
  have h := s.takeTrap_sameStore core ctx cause (s.thread core ctx).img.pc addr false n
  unfold State.raise
  dsimp only
  split
  · exact h
  · exact h.trans ⟨rfl, rfl, rfl, rfl, rfl, rfl⟩

theorem State.completes_sameStore : t.sameStore (s.completes t) := ⟨rfl, rfl, rfl, rfl, rfl, rfl⟩

theorem State.jumps_sameStore : t.sameStore (s.jumps t pc) := ⟨rfl, rfl, rfl, rfl, rfl, rfl⟩

theorem State.rests_sameStore : t.sameStore (s.rests t w) := ⟨rfl, rfl, rfl, rfl, rfl, rfl⟩

theorem State.stalls_sameStore : s.sameStore s.stalls := (s.block_sameStore _ _ _).trans (State.startCount_sameStore _ _ _)

theorem State.traps_sameStore : s.sameStore (s.traps cause addr) := s.raise_sameStore _ _ _ _ _

end Sys2Proof.Machine
end

