-- ==== Sys2Proof/Tests/Slice0.lean ====
section
/-!
SUPPORT. Slice0.lean: small states; for each obligation, states and operands that meet its hypotheses, clause by clause where they
differ; words written out from the spec's encodings with the instructions they decode to; a term that each check of WellFormed
refuses; and single steps whose results come from the spec's own words.
-/

set_option Elab.async false

namespace Sys2Proof.Tests

open Sys2Proof Sys2Proof.Machine Sys2Proof.Claims

/-! ## Small states -/

/-- A context at a pc in a mode; every register is full and untagged zero. -/
def at' (pc : Nat) (m : Mode) : Context := { Context.zero with pc := BitVec.ofNat 18 pc, mode := m }

/-- Slot k of a core that runs a context. -/
def running (c : Context) : Thread := ⟨c, { Slot.free with status := .ready, resident := true, epoch := 1 }⟩

/-- Partition 0 with stage 0, and one context of core 0 that runs. -/
def one (k : Nat) (c : Context) : State :=
  { State.reset with parts := [(0, { Partition.absent with stages := [0] })], threads := [(k, running c)], cur := (0, k) }

/-- The same with a request in flight. -/
def flying (k : Nat) (c : Context) (b : Body) : State :=
  { one k c with reqs := [⟨7, 0, k, 1, some .m, .core 0, [], b⟩], nextId := 8 }

/-- A linear capability over a base and a length, with the permissions L S X A C G. -/
def cap (perms : BitVec 6) (base len off : Nat) : XReg :=
  ⟨mkLinear perms (BitVec.ofNat 57 base) (BitVec.ofNat 31 len) (BitVec.ofNat 32 off), true, true⟩

/-- A context with a register set. -/
def having (c : Context) (r : Nat) (v : XReg) : Context := { c with x := c.x.setIfInBounds r v }

def num (v : Nat) : XReg := ⟨BitVec.ofNat 128 v, false, true⟩

def user : Context := at' 0x100 .user

/-- A bound reading generator on x24 that holds one element, and one that appends. -/
def bound (append : Bool) : Gen := ⟨true, append, 3#2, 0#2, mkLinear 0b110000#6 0x1000#57 64#31 0#32, true, 0#32, if append then [] else [9], []⟩

def streaming (append : Bool) : Context := { user with gens := user.gens.set 0 (bound append) }

theorem rd {s : State} {r : XName} (h : (s.img.genOf r == none && (r == 0#5 || (s.img.x[r.toFin]).full) &&
    !s.img.isWindowed r.toNat) = true) : s.readable r := by
  simp only [Bool.and_eq_true, Bool.or_eq_true, beq_iff_eq, Bool.not_eq_true'] at h
  unfold State.readable
  rw [h.1.1]
  exact ⟨h.1.2, fun w => absurd w (by simp [h.2])⟩

theorem wr {c : Context} {r : XName} (h : (c.genOf r == none && (r == 0#5 || (c.x[r.toFin]).full)) = true) : c.writable r := by
  simp only [Bool.and_eq_true, Bool.or_eq_true, beq_iff_eq] at h
  exact h

theorem cl {s : State} {c : Cls} {o n : Nat} (h : (s.fenceWaits c == [] && s.nearEvents == [] &&
    s.sameLocation (ulmAddr s.cur.1 o) n == [] && s.mayPublish && !s.listHeld (ulmAddr s.cur.1 o) n none) = true) :
    clear s c o n := by
  simp only [Bool.and_eq_true, beq_iff_eq, Bool.not_eq_true'] at h
  exact ⟨h.1.1.1.1, h.1.1.1.2, h.1.1.2, fun _ => ⟨h.1.2, h.2⟩⟩

/-! ## Witnesses: for each statement, states and operands that meet its hypotheses -/

def x5 : Src := ⟨5#5, false⟩
def x6 : Src := ⟨6#5, true⟩

theorem witness_integers : ∃ f g v h q,
    twoSources (.add 31#5 x5 x6) = some (31#5, x5, x6, f) ∧ oneSource (.clz 0#5 x5) = some (0#5, x5, g) ∧
    constant (.ldiL 31#5 (-1#40)) = some (31#5, v) ∧ oldDest (.bins 31#5 x5 x6) = some (31#5, x5, x6, h) ∧
    quotient (.div 31#5 x5 x6) = some (31#5, x5, x6, q) ∧ integerDest (.div 31#5 x5 x6) = some 31#5 ∧
    (one 0 user).img.writable 31#5 ∧ (one 0 user).img.writable 0#5 ∧ (one 0 user).readable x5.reg ∧
    (one 0 user).readable x6.reg ∧ (one 0 user).img.unbound 31#5 :=
  ⟨_, _, _, _, _, rfl, rfl, rfl, rfl, rfl, rfl, wr (by decide +kernel), wr (by decide +kernel), rd (by decide +kernel),
    rd (by decide +kernel), (wr (by decide +kernel)).1⟩

theorem witness_ordered : (one 0 user).ordered 31 ∧ (one 0 { user with windowed := 1#48 <<< 5 }).ordered 5 :=
  ⟨fun _ => by decide +kernel, fun _ => by decide +kernel⟩

theorem witness_integer_frame : ∃ t, exec (.nop) (one 0 user) = .next t := ⟨_, rfl⟩

theorem witness_stream_source : (one 0 (streaming false)).readable 24#5 := by
  have h : (streaming false).genOf 24#5 = some 0 := by decide +kernel
  unfold State.readable
  rw [show (one 0 (streaming false)).img.genOf 24#5 = some 0 from h]
  decide +kernel

theorem witness_appending : appends (one 0 (streaming true)) 24#5 0 0x1000 := by
  refine ⟨by decide +kernel, by decide +kernel, cl (by decide +kernel)⟩

/-- x5 empty. -/
def waiting : Context := user.emptied 5#5

theorem witness_empty : (one 0 waiting).img.unbound 5#5 ∧ ((one 0 waiting).img.x[(5#5 : XName).toFin]).full = false ∧
    (one 0 waiting).img.writable 31#5 ∧ (one 0 waiting).readable 6#5 :=
  ⟨(wr (c := user) (by decide +kernel)).1, by decide +kernel, wr (by decide +kernel), rd (by decide +kernel)⟩

theorem witness_old_destination_bound : ∃ f, oldDest (.sel 24#5 x5 x6) = some (24#5, x5, x6, f) ∧
    (one 0 (streaming false)).img.genOf 24#5 = some 0 ∧ (one 0 (streaming true)).img.genOf 24#5 = some 0 :=
  ⟨_, rfl, by decide +kernel, by decide +kernel⟩

theorem witness_branches : branch (.beq x5 x6 (-512#10)) = some (0#3, x5, x6, -512) ∧ user.pc.getLsbD 0 = false ∧
    user.loops.endsAt user.pc = false ∧ condition 0#3 0#64 0#64 = some true ∧ condition 1#3 0#64 0#64 = some false ∧
    condition 2#3 0#64 0#64 = none ∧ branch (.cBeqz 7#3 (-1#8)) = some (0#3, ⟨15#5, false⟩, ⟨0#5, false⟩, -1) := by decide +kernel

theorem witness_jumps : jumpsAway (.jal 1#5 (-1#20)) = some (1#5, -1) ∧ jumpsBy .cRet = some (0#5, ⟨1#5, false⟩) ∧
    target (num 0x3FFFE) = some 0x3FFFE#18 ∧ target (num 0x101) = some 0x101#18 ∧
    target (cap 0b001000#6 0x100 0x40 0x3C) = some 0x13C#18 := by decide +kernel

/-- One loop whose end is the pc. -/
def looping (n : Nat) : Context := { user with loops := ⟨1#2, ⟨0x70#17, 0x80#17, BitVec.ofNat 32 n⟩, ⟨0#17, 0#17, 0#32⟩⟩ }

theorem witness_loops : Claims.control .done = true ∧ (looping 2).loops.endsAt (looping 2).pc = true ∧
    (looping 2).loops.e0.stopPc = (looping 2).pc ∧ (looping 2).loops.e0.count ≠ 1#32 ∧ (looping 1).loops.e0.count = 1#32 ∧
    (looping 2).loops.depth.toNat < 2 ∧ (one 0 user).readable 5#5 :=
  ⟨by decide +kernel, by decide +kernel, by decide +kernel, by decide +kernel, by decide +kernel, by decide +kernel,
    rd (by decide +kernel)⟩

/-- Two loops that both end at the pc, or the outer one further on. -/
def twoLoops (outer inner : Nat) (shared : Bool) : Context :=
  { user with loops := ⟨2#2, ⟨0x70#17, if shared then 0x80#17 else 0x90#17, BitVec.ofNat 32 outer⟩,
      ⟨0x78#17, 0x80#17, BitVec.ofNat 32 inner⟩⟩ }

theorem witness_nested_loops : (twoLoops 2 2 true).loops.depth = 2#2 ∧ (twoLoops 2 2 true).loops.e1.stopPc = (twoLoops 2 2 true).pc ∧
    (twoLoops 2 2 true).loops.e1.count ≠ 1#32 ∧ (twoLoops 2 1 true).loops.e1.count = 1#32 ∧
    (twoLoops 2 1 true).loops.e0.stopPc = (twoLoops 2 1 true).pc ∧ (twoLoops 2 1 true).loops.e0.count ≠ 1#32 ∧
    (twoLoops 1 1 true).loops.e0.count = 1#32 ∧ (twoLoops 2 1 false).loops.e0.stopPc ≠ (twoLoops 2 1 false).pc ∧
    (twoLoops 2 1 false).loops.e0.crossed (twoLoops 2 1 false).pc ((one 0 (twoLoops 2 1 false)).nextPc 0 (twoLoops 2 1 false).pc) = false := by
  decide +kernel

theorem witness_full_loops : ({ user with loops := { user.loops with depth := 2#2 } } : Context).loops.depth.toNat = 2 := by
  decide +kernel

/-- Slot 1 in the wings, ready. -/
def two : State := { one 0 user with threads := [(0, running user), (1, { running user with slot := { Slot.free with status := .ready } })] }

theorem witness_yield : user.loops.endsAt user.pc = false ∧ (one 0 user).readyOut 0 = none ∧ two.readyOut 0 = some 1 ∧
    (two.core 0).swap = none ∧ two.img.appended = true ∧ (one 16 user).cur.2 = 16 ∧
    ((one 0 (streaming true)).img.gens[0]).append = true := by decide +kernel

theorem witness_awaited_element : nextElement (streaming true) 24#5 = some (0, 0x1000) ∧
    ¬ (Gen.room ≤ ((streaming true).gens[(0 : Fin 4)]).pending.length ∨ (one 0 (streaming true)).mayPublish = false) := by
  decide +kernel

theorem witness_done : ({ user with inlineValid := true } : Context).inlineValid = true ∧ user.appended = true ∧
    user.inlineValid = false ∧ (one 0 user).groupsOf 0 0 1 = [] := by decide +kernel

theorem witness_local_accesses : ∃ l t l' t', load (.lq 31#5 x5 3#11) = some (l, 48) ∧ store (.sq x5 x6 3#8) = some (t, 48) ∧
    loadStep (.lbPostinc 31#5 x5 (-1#8)) = some (l', -1) ∧ storeStep (.sdPostinc x5 x6 1#8) = some (t', 8) ∧ l'.d ≠ l'.base.reg ∧
    localOffset .user (cap 0b110010#6 0 64 0) true true 48 l.n = some 48 ∧
    localOffset .user (cap 0b110010#6 0 64 0) false true 48 t.n = some 48 ∧
    localOffset .user (cap 0b110010#6 0x37FFF 1 0) true false 0 l'.n = some 0x37FFF ∧
    localOffset .supervisor (cap 0b110010#6 0x3FFF8 8 0) false false 0 t'.n = some 0x3FFF8 ∧ clear (one 0 user) .r 48 16 ∧
    clear (one 0 user) .w 48 16 :=
  ⟨_, _, _, _, rfl, rfl, rfl, rfl, by decide +kernel, by decide +kernel, by decide +kernel, by decide +kernel, by decide +kernel,
    cl (by decide +kernel), cl (by decide +kernel)⟩

theorem witness_same_register_load : ∃ l, loadStep (.ldPostinc 5#5 x5 0#8) = some (l, 0) ∧ l.d = l.base.reg := ⟨_, rfl, rfl⟩

theorem witness_stored_bytes : (0x30 : Nat) % 16 = 0 ∧ (List.replicate 16 (1#8 : Byte)).length = 16 ∧ State.reset.memoryOk :=
  ⟨rfl, rfl, rfl, rfl⟩

/-- A capability to the ULM of core 1, in the same stage. -/
def far : XReg := cap 0b110111#6 0x100000 64 0

set_option maxRecDepth 8000 in
theorem witness_map_accesses : goesThroughMap (one 0 user) far needL 8 4 0x100008 ∧
    goesThroughMap (one 0 user) far ⟨false, true, false, false, false⟩ 0 8 0x100000 := ⟨rfl, rfl⟩

theorem witness_map_performed : (flying 0 user (.read 0x100008 4 false .none)).req 7 =
      some ⟨7, 0, 0, 1, some .m, .core 0, [], .read 0x100008 4 false .none⟩ ∧
    windowOf Grade.full 0x100008 4 = .ulm 1 8 ∧ windowOf Grade.full 0x13FFFF 1 = .ulm 1 0x3FFFF ∧
    (flying 0 user (.write 0x100000 [1#8] false none false)).mayRun
      ⟨7, 0, 0, 1, some .m, .core 0, [], .write 0x100000 [1#8] false none false⟩ = true ∧
    (flying 0 user (.write 0x100000 [1#8] false none false)).storeHeld
      ⟨7, 0, 0, 1, some .m, .core 0, [], .write 0x100000 [1#8] false none false⟩ = false := by decide +kernel

theorem witness_values_arrive : (one 0 user).present ⟨7, 0, 0, 1, some .r, .core 0, [], .reply (.x 5#5 4 true false) [0#8, 0#8, 0#8, 128#8] false⟩ = true ∧
    (one 0 user).service.curtain = none ∧
    (flying 0 user (.divide (.x 5#5 8 false false) 3#64)).req 7 ≠ none := by decide +kernel

theorem witness_load_checks : (cap 0b110010#6 0 64 0).tag = true ∧ Quad.kind (cap 0b110010#6 0 64 0).val = 0#2 ∧
    Quad.hasG (cap 0b110010#6 0 64 0).val = false ∧ Quad.hasL (cap 0b010010#6 0 64 0).val = false ∧
    Quad.hasL (cap 0b110010#6 0 64 0).val = true ∧ Quad.kind (⟨2#2 ++ 0#126, true, true⟩ : XReg).val = 2#2 := by decide +kernel

/-- A mesh capability over the slice 0x100 to 0x13F of 2 columns and 3 rows. -/
def meshCap : XReg := ⟨Mesh.toQuad ⟨0b110010#6, 0#7, 0#7, 0x100#18, 0x40#18, 2#7, 3#7, 0#7, 0#7, 0x100#18⟩, true, true⟩

theorem witness_capabilities : accepted (cap 0b111110#6 0x100 64 8) ∧ accepted meshCap ∧ (num 0).tag = false ∧
    Quad.kind meshCap.val = 1#2 ∧ (0x100 : Nat) + 64 ≤ 0x40000 :=
  ⟨⟨rfl, .inl (by decide +kernel)⟩, ⟨rfl, .inr (by decide +kernel)⟩, rfl, by decide +kernel, by decide⟩

theorem witness_streams : (one 0 user).img.writable 24#5 ∧ (user.gens[(3#2 : BitVec 2).toFin]).bound = false ∧
    (streaming false).genOf 24#5 = some 0 ∧ ((streaming true).gens[(0 : Fin 4)]).pending = [] ∧ (one 0 user).img.unbound 27#5 :=
  ⟨wr (by decide +kernel), by decide +kernel, by decide +kernel, by decide +kernel, (wr (by decide +kernel)).1⟩

/-- A reading generator with nothing fetched. -/
def fetching : Context := { user with gens := user.gens.set 0 { bound false with fetched := [] } }

theorem witness_fetch : ((one 0 fetching).thread 0 0).slot.inCore 0 = true ∧ (one 0 fetching).slotHeld 0 0 = false ∧
    (one 0 fetching).nearEvents = [] ∧ (one 0 fetching).sameLocation (ulmAddr 0 0x1000) 8 = [] ∧
    localOffset .user ((fetching.gens[(0 : Fin 4)]).at 0#32) true false 0 8 = some 0x1000 := by decide +kernel

/-- User mode with x5 a capability with L, S, A and C over 0 to 0x38000, x6 and x7 numbers. -/
def loaded (len off a b : Nat) : Context :=
  having (having (having user 5 (cap 0b110110#6 0 len off)) 6 (num a)) 7 (num b)

def x7 : Src := ⟨7#5, false⟩

theorem witness_transfers : (one 0 (loaded 0x38000 0 0 0)).readable 5#5 ∧ (one 0 (loaded 0x38000 0 0 0)).readable 6#5 ∧
    freeEntry ((one 0 user).core 0).queues = some 0 ∧ ((one 0 (loaded 0x38000 0 0x1FFFFFFFFFFFFFF 0x38000)).img.sourceVal 5#5).tag = true ∧
    Quad.hasL (cap 0b110110#6 0 0x38000 0).val = true ∧ Quad.hasS (cap 0b110110#6 0 0x38000 0).val = true ∧
    Quad.hasG (cap 0b110110#6 0 0x38000 0).val = false ∧ (Quad.length (cap 0b110110#6 0 0x38000 0).val).toNat = 0x38000 ∧
    ((one 0 (loaded 0x38000 0 0x1FFFFFFFFFFFFFF 0x38000)).img.word 6#5).toNat < 2 ^ 57 ∧
    ((one 0 (loaded 0x38000 0 (16 * 2 ^ 57) 0)).img.word 6#5).toNat / 2 ^ 57 = 16 :=
  ⟨rd (by decide +kernel), rd (by decide +kernel), by decide +kernel, by decide +kernel, by decide +kernel, by decide +kernel,
    by decide +kernel, by decide +kernel, by decide +kernel, by decide +kernel⟩

/-- Entry 3 of the DRAM queue of core 0: 0x100 of the own ULM, 0x10000, and for a gather rows of 64 bytes, its list at 0x200. -/
def entry (kind : DqKind) (len : Nat) (started : Bool) : DqEntry :=
  ⟨kind, 0x100, 0x10000, len, 6, 0x200, if started then [1, 3] else [], 1, 0, started, 0, none, 0, 5, [], false, 0, 1⟩

/-- A TLB entry of context 0 that maps the page at a virtual address to the same physical address, tier 0, class 1. -/
def page (va : Nat) (perms : BitVec 3) : TlbEntry :=
  ⟨0, BitVec.ofNat 128 (va + va * 2 ^ 48 + perms.toNat * 2 ^ 109 + 2 ^ 120 + 2 ^ 117)⟩

def pulling (e : DqEntry) : State :=
  { one 0 user with
    cores := [(0, { Core.reset with queues := { Core.reset.queues with dq := [(3, e)] } })]
    tlbs := [(0, [(0, page 0x10000 6#3)])]
    parts := [(0, { Partition.absent with stages := [0], frames := [(0, 16)] })] }

/-- The same with a later entry that has not started, and with nothing in the TLB. -/
def queued (e : DqEntry) : State :=
  let s := pulling e
  { s with cores := [(0, { Core.reset with queues := { Core.reset.queues with dq := [(2, { e with order := 1, id := 6 }), (3, e)] } })] }

theorem witness_transfer_starts : (∀ x ∈ ((queued (entry .gather 128 false)).core 0).queues.dq, x.2.started = false →
      x ≠ (3, entry .gather 128 false) → (entry .gather 128 false).order < x.2.order) ∧
    (3, entry .gather 128 false) ∈ ((queued (entry .gather 128 false)).core 0).queues.dq ∧
    (entry .pull 0 false).started = false ∧ (entry .pull 0 false).len = 0 ∧
    (∀ r ∈ (entry .push 64 false).after, (queued (entry .push 64 false)).inFlight r = false) ∧
    (∃ r ∈ [7], (flying 0 user (.bump 0 1 3)).inFlight r = true) := by decide +kernel

/-- Where the page lies. -/
def there : DramAt := ⟨0, 0x10000, 0, 0, 0x10000, 1, 0, true, none, 65536⟩

theorem witness_transfer_moves : (pulling (entry .pull 128 true)).entryOpen 0 (entry .pull 128 true) = true ∧
    (pulling (entry .pull 128 true)).look (.core 0) ((pulling (entry .pull 128 true)).contextOf 0) (entryAddress (entry .pull 128 true) 0)
      (entry .pull 128 true).need = .hit there ∧
    (∃ bs u, (pulling (entry .pull 128 true)).dramRead false there 64 = (.ok bs, u)) ∧
    (pulling (entry .gather 128 true)).entryOpen 0 (entry .gather 128 true) = true ∧
    (pulling (entry .gather 128 true)).look (.core 0) 0 (entryAddress (entry .gather 128 true) 64) (entry .gather 128 true).need =
      .hit { there with va := 0x100C0, phys := 0x100C0 } ∧
    (pulling (entry .push 128 true)).entryOpen 0 (entry .push 128 true) = true ∧
    (pulling (entry .push 128 true)).look (.core 0) 0 (entryAddress (entry .push 128 true) 0) (entry .push 128 true).need = .hit there ∧
    (∃ u, (pulling (entry .push 128 true)).dramWrite (0, 0, 1) there (List.replicate 64 0#8) = (.ok (), u)) ∧
    (pulling (entry .push 128 true)).memoryOk :=
  ⟨by decide +kernel, by decide +kernel, ⟨_, _, rfl⟩, by decide +kernel, by decide +kernel, by decide +kernel, by decide +kernel,
    ⟨_, rfl⟩, rfl, rfl⟩

/-- The page may only be read. -/
def barred (e : DqEntry) : State := { pulling e with tlbs := [(0, [(0, page 0x10000 4#3)])] }

theorem witness_transfer_faults : (barred (entry .push 128 true)).look (.core 0) 0 0x10000 (entry .push 128 true).need =
      .cause Cause.protection ∧
    (barred (entry .push 128 true)).entryOpen 0 (entry .push 128 true) = true ∧ entryAddress (entry .push 128 true) 0 = 0x10000 ∧
    (({ barred (entry .pull 128 true) with tlbs := [(0, [(0, ⟨0, BitVec.ofNat 128 (0x10000 + 2 ^ 108)⟩)])] } : State).look (.core 0) 0 0x10000
      (entry .pull 128 true).need = .cause Cause.pageFault) ∧
    ((barred (entry .push 128 true)).core 0).queues.dqValid = false ∧ ((barred (entry .push 128 true)).core 0).queues.dqWaiting = [] ∧
    ((barred (entry .push 128 true)).thread 0 0).slot.status ≠ .free ∧
    ((barred (entry .push 128 true)).thread 0 0).slot.epoch = (entry .push 128 true).epoch := by decide +kernel

def record : DqFault := ⟨0#32, Cause.pageFault, 3#4, 0x10000#64, true, 0, 1⟩

theorem witness_fault_record : (({ one 0 user with cores := [(0, { Core.reset with
      queues := { Core.reset.queues with dqWaiting := [record] } })] } : State).core 0).queues.dqWaiting = record :: [] ∧
    record.resolvable = true := by decide +kernel

theorem witness_counters : (waitsFor (one 0 user) (.cwait 63#6 0#11)).isSome = true ∧
    (waitsFor (one 0 user) (.cCwait 1#6 1#5)).isSome = true ∧ (addsTo (one 0 user) (.cadd 0#6 (-1#11))).isSome = true ∧
    (sets (one 0 user) (.cset 0#6 2047#11)).isSome = true ∧ (one 0 user).fenceWaits .q = [] ∧
    (flying 0 user (.bump 0 1 3)).req 7 = some ⟨7, 0, 0, 1, some .m, .core 0, [], .bump 0 1 3⟩ ∧
    ∀ k, k < 16 → ((one 0 user).thread 0 k).slot.wait ≠ .event := by decide +kernel

theorem witness_counter_sources : ready (one 0 user) (.cwaitReg 1#6 x6) ∧ (one 0 user).img.writable 31#5 :=
  ⟨show (one 0 user).readable x6.reg from rd (by decide +kernel), wr (by decide +kernel)⟩

/-- A state with a write of slot 0 in flight to core 1, under request 7. -/
def writing : State := { flying 0 user (.write 0x100000 [1#8] false none false) with
  reqs := [⟨7, 0, 0, 1, some .w, .core 1, [], .write 0x100000 [1#8] false none false⟩] }

theorem witness_fences : fence (.fenceS 2#5 31#5) = some (.stage, 2#5, 31#5) ∧ fence (.fenceY 0#5 1#5) = some (.system, 0#5, 1#5) ∧
    (∃ r ∈ writing.reqs, r.core = writing.cur.1 ∧ r.ctx = writing.cur.2 ∧ r.epoch = writing.curThread.slot.epoch ∧
      r.cls = some .w ∧ (2#5 : BitVec 5).getLsbD Cls.w.bit = true ∧ (31#5 : BitVec 5).getLsbD Cls.r.bit = true ∧
      Scope.stage.holds writing.cur.1 r.place = true) ∧
    ({ writing with threads := [(0, ⟨user, { (running user).slot with fences := [⟨[7], 1#5⟩] }⟩)] } : State).fenceWaits .r = [7] := by
  refine ⟨rfl, rfl, ⟨_, List.mem_singleton.mpr rfl, ?_⟩, by decide +kernel⟩
  decide +kernel

theorem witness_groups : groupForm (.barq 31#5 x5) = some (.barq, 31#5, x5) ∧ groupForm (.join x6) = some (.join, 0#5, x6) ∧
    (one 16 user).cur.2 = 16 ∧ (one 0 user).cur.2 ≠ 16 := by decide +kernel

/-- Core 0 is home of group 9, at phase 4 with slot 0 as its member. -/
def grouped (b : Body) : State := { flying 0 user b with
  cores := [(0, { Core.reset with groups := [(9, ⟨4#32, 1, [⟨0, 0, 1, false, false, false, none⟩]⟩)] })]
  threads := [(0, ⟨user, { (running user).slot with status := .blocked, wait := .answer 7 }⟩)] }

theorem witness_groups_answered : (flying 0 user (.group .join 9#16 0#5)).mayRun ⟨7, 0, 0, 1, some .m, .core 0, [], .group .join 9#16 0#5⟩ = true ∧
    ((flying 0 user (.group .join 9#16 0#5)).core 0).groups.find 9 = none ∧
    ((grouped (.group .barw 9#16 0#5)).core 0).groups.find 9 = some ⟨4#32, 1, [⟨0, 0, 1, false, false, false, none⟩]⟩ ∧
    (grouped (.groupAnswer 9#16 .over 0#5)).present ⟨7, 0, 0, 1, some .m, .core 0, [], .groupAnswer 9#16 .over 0#5⟩ = true ∧
    ((grouped (.groupAnswer 9#16 .ok 0#5)).thread 0 0).slot.wait = .answer 7 ∧
    ((grouped (.groupAnswer 9#16 .ok 0#5)).thread 0 0).slot.inCore 0 = true ∧
    ((grouped (.groupAnswer 9#16 .over 0#5)).thread 0 0).pendingX 29#5 = false := by decide +kernel

set_option maxRecDepth 16000 in
theorem witness_atomics : ∃ op n d a b k,
    atomic (.acas 5#5 x6 x7 true) = some (op, n, d, a, b, k) ∧ (atomic (.raddTz x6 x7 63#6)).isSome = true ∧
    (one 0 (having user 6 (cap 0b000100#6 0x3000 8 0))).img.writable d ∧
    (one 0 (having user 6 (cap 0b000100#6 0x3000 8 0))).readable a.reg ∧
    (one 0 (having user 6 (cap 0b000100#6 0x3000 8 0))).readable b.reg ∧ (one 0 user).cur.2 ≠ 16 ∧
    accessCheck ((one 0 (having user 6 (cap 0b000100#6 0x3000 8 0))).img.sourceVal a.reg) needA 0 n n
      (one 0 (having user 6 (cap 0b000100#6 0x3000 8 0))) = .ok (.local 0x3000, one 0 (having user 6 (cap 0b000100#6 0x3000 8 0))) :=
  ⟨_, _, _, _, _, _, rfl, rfl, wr (by decide +kernel), rd (by decide +kernel), rd (by decide +kernel), by decide +kernel, rfl⟩

def adding (op : AOp) (n : Nat) (v e : Nat) (p : Option DramAt) : Atomic :=
  ⟨op, n, BitVec.ofNat 128 v, BitVec.ofNat 128 e, 0x100, p, .x 5#5 n true false, false, 0#6⟩

def inboxed (x : Atomic) : State := { flying 0 user (.atomic x) with
  cores := [(0, { Core.reset with queues := { Core.reset.queues with inbox := [.atomic 7] } })] }

theorem witness_atomics_in_ulm : ((inboxed (adding .min 4 1 0 none)).core 0).queues.inbox = .atomic 7 :: [] ∧
    ((inboxed (adding .min 4 1 0 none)).core 0).activation = none ∧ ((inboxed (adding .min 4 1 0 none)).req 7).isSome = true ∧
    (adding .fadd 4 1 0 none).op ≠ .vbmin ∧ (adding .min 4 1 0 none).trigger = 0#6 ∧
    ({ adding .add 8 1 0 none with trigger := 5#6 }).op = .add ∧ (adding .radd 8 1 0 none).bytes = 8 := by decide +kernel

set_option maxRecDepth 16000 in
theorem witness_handler_atomics : (one 16 user).cur.2 = 16 ∧ clear (one 16 user) .a 0x3000 8 ∧
    accessCheck (cap 0b000100#6 0x3000 8 0) needA 0 8 8 (one 16 user) = .ok (.local 0x3000, one 16 user) :=
  ⟨rfl, cl (by decide +kernel), rfl⟩

theorem witness_atomics_in_dram : ∃ bs u, (flying 0 user (.atomic (adding .cas 8 1 0 (some there)))).dramRead false there 8 = (.ok bs, u) ∧
    (flying 0 user (.atomic (adding .cas 8 1 0 (some there)))).atomicOpen
      ⟨7, 0, 0, 1, some .m, .core 0, [], .atomic (adding .cas 8 1 0 (some there))⟩ there = true ∧ bs.length = 8 ∧
    little bs = 0 ∧ (adding .cas 8 1 0 (some there)).op ≠ .vbmin ∧
    (flying 0 user (.atomic (adding .cas 8 1 0 (some there)))).service.update = none ∧ there.tier = 0 :=
  ⟨_, _, rfl, by decide +kernel, by decide +kernel, by decide +kernel, by decide +kernel, by decide +kernel, rfl⟩

set_option maxRecDepth 16000 in
theorem witness_atomic_in_bad_granule : ∃ u, ({ flying 0 user (.atomic (adding .cas 8 1 0 (some there))) with
    flips := [0x10000 * 8, 0x10000 * 8 + 1] } : State).openDram there = (.error Cause.uncorrectable, u) := ⟨_, rfl⟩

theorem witness_atomic_replies : (flying 0 user (.atomicReply (.x 5#5 4 true false) 0xFFFFFFFF#128 1#5 none)).present
      ⟨7, 0, 0, 1, some .m, .core 0, [], .atomicReply (.x 5#5 4 true false) 0xFFFFFFFF#128 1#5 none⟩ = true ∧
    ((flying 0 user (.atomicReply (.x 5#5 4 true false) 0xFFFFFFFF#128 1#5 none)).thread 0 0).slot.inCore 0 = true ∧
    (0xFFFFFFFF#128 : Quad).toNat < 2 ^ (8 * 4) := by decide +kernel

theorem witness_messages : (one 0 (having user 6 (num 0x3F))).readable 6#5 ∧
    ((one 0 (having user 6 (num 0))).img.word 6#5).toNat = 0 ∧ isCore 0 = true ∧ isCore 10239 = true ∧
    (one 0 user).grade.noStage.contains (stageOf 0) = false ∧ (one 0 user).samePart 0 0x387 = true ∧
    ((one 0 user).outbound 0).length < 8 ∧ (3#5 : XName) ≠ 0#5 :=
  ⟨rd (by decide +kernel), by decide +kernel, by decide +kernel, by decide +kernel, by decide +kernel, by decide +kernel,
    by decide +kernel, by decide +kernel⟩

set_option maxRecDepth 8000 in
theorem witness_long_messages : accessCheck (cap 0b100000#6 0x100 256 0) needL 0 256 4 (one 0 user) = .ok (.local 0x100, one 0 user) ∧
    clear (one 0 user) .r 0x100 256 ∧ (one 0 user).img.writable 9#5 ∧ (one 15 user).cur.2 < 16 ∧ (62#8 : BitVec 8) ≠ 63#8 :=
  ⟨rfl, cl (by decide +kernel), wr (by decide +kernel), by decide +kernel, by decide +kernel⟩

/-- x6 names a class, and x5 a region with L and S. -/
def binding (v : Nat) : Context := having (having user 6 (num v)) 5 (cap 0b110000#6 0x2000 256 16)

theorem witness_bindings : (one 0 (binding 255)).readable 6#5 ∧ (one 0 (binding 255)).readable 5#5 ∧
    ((one 0 (binding 255)).img.word 6#5).toNat = 255 ∧ ((one 0 (binding 256)).img.word 6#5).toNat = 256 ∧
    ((one 0 (binding 0)).img.word 6#5).toNat = 0 ∧ ((one 0 (binding 255)).img.sourceVal 5#5).tag = true ∧
    Quad.kind ((one 0 (binding 255)).img.sourceVal 5#5).val = 0#2 ∧
    (Quad.offset ((one 0 (binding 255)).img.sourceVal 5#5).val).toNat ≤ (Quad.length ((one 0 (binding 255)).img.sourceVal 5#5).val).toNat :=
  ⟨rd (by decide +kernel), rd (by decide +kernel), by decide +kernel, by decide +kernel, by decide +kernel, by decide +kernel,
    by decide +kernel, by decide +kernel⟩

theorem witness_spawn : (one 0 user).cur.2 ≠ 16 ∧ (one 0 user).img.writable 31#5 ∧
    (∀ j : BitVec 5, 4 ≤ j.toNat → j.toNat ≤ 7 → ((one 0 user).img.x[j.toFin]).full = true) ∧
    ((one 0 (having user 6 (num 0x3FFFE))).img.word 6#5).toNat % 2 = 0 ∧
    (flying 0 user (.spawn 0 0x100#18 [num 1, num 2, num 3, num 4] .user none (.x 5#5 8 false false))).mayRun
      ⟨7, 0, 0, 1, some .m, .core 0, [], .spawn 0 0x100#18 [num 1, num 2, num 3, num 4] .user none (.x 5#5 8 false false)⟩ = true ∧
    (List.range 16).find? (fun k => ((one 0 user).thread 0 k).slot.status == .free && !((one 0 user).thread 0 k).slot.held) = some 1 :=
  ⟨by decide +kernel, wr (by decide +kernel), by decide +kernel, by decide +kernel, by decide +kernel, by decide +kernel⟩

theorem witness_spawn_answered :
    (grouped (.spawnAnswer none 0 0x100#18 [num 1, num 2, num 3, num 4] .user none .none)).present
      ⟨7, 0, 0, 1, some .m, .core 0, [], .spawnAnswer none 0 0x100#18 [num 1, num 2, num 3, num 4] .user none .none⟩ = true ∧
    ((grouped (.spawnAnswer none 0 0x100#18 [] .user none .none)).thread 0 0).img.inlineValid = false ∧
    ((grouped (.spawnAnswer none 0 0x100#18 [] .user none .none)).thread 0 0).slot.saved = false ∧
    ((grouped (.spawnAnswer none 0 0x100#18 [] .user none .none)).thread 0 0).img.loops.depth = 0#2 ∧
    (((grouped (.spawnAnswer none 0 0x100#18 [] .user none .none)).thread 0 0).img.x[1]).full = true := by decide +kernel

def note : Msg := ⟨5#8, 1#14, [1#32, 2#32], false⟩

theorem witness_messages_arrive : ((one 0 user).core 0).queues.inbox.length < 32 ∧ ((one 0 user).core 0).queues.unbound.length < 8 ∧
    ((one 0 user).core 0).bindings.find 5 = none ∧
    8 ≤ (({ one 0 user with cores := [(0, { Core.reset with queues := { Core.reset.queues with unbound := List.replicate 8 note } })] } :
      State).core 0).queues.unbound.length ∧
    (0 : Nat) + 2 ^ 20 ≤ ({ one 0 user with cycle := 2 ^ 20 } : State).cycle ∧ (one 0 user).partOf 0 = some 0 := by decide +kernel

theorem witness_activation : let s : State := { one 0 user with cores := [(0, { Core.reset with
      bindings := [(5, ⟨0x200#18, none, .user⟩)], queues := { Core.reset.queues with inbox := [.msg note] } })] }
    (s.core 0).activation = none ∧ (s.core 0).regs.preStat = 0#2 ∧ (s.core 0).queues.inbox = .msg note :: [] ∧
      (s.core 0).bindings.find note.cls.toNat = some ⟨0x200#18, none, .user⟩ := by decide +kernel

theorem witness_dictionary : (({ one 0 user with cores := [(0, { Core.reset with dicts := ([], [⟨1, [2#32]⟩]) })] } : State).core 0).dicts.2.getLast? =
    some ⟨1, [2#32]⟩ ∧ (1 : Nat) ≠ 0 := by decide +kernel

/-! ### Floating point and vectors -/

theorem witness_floating_point : ∃ f, fpForm (one 0 user).img (.fadd 31#5 x5 x6 2#2 7#3) = some f ∧
    modeOf (one 0 user).img f.rm = some .rne ∧ (one 0 user).img.writable f.d ∧ f.ready (one 0 user) :=
  ⟨_, rfl, by decide +kernel, wr (by decide +kernel), rd (by decide +kernel), rd (by decide +kernel)⟩

theorem witness_floating_point_illegal : ∃ f, fpForm (one 0 user).img (.fadd 31#5 x5 x6 2#2 4#3) = some f ∧
    modeOf (one 0 user).img f.rm = none := ⟨_, rfl, by decide +kernel⟩

/-- Invalid operations trap. -/
def strict : Context := { having (having user 5 (num 0x7F800001)) 6 (num 0x3F800000) with fpCtrl := 0x1000#13 }

theorem witness_enabled_exception : ∃ f, fpForm (one 0 strict).img (.fadd 31#5 x5 x6 2#2 0#3) = some f ∧
    (one 0 strict).img.fpCtrl.extractLsb' 8 5 &&& (f.result .rne).2 = 0b10000#5 := ⟨_, rfl, by decide +kernel⟩

theorem witness_representable : Fmt.fp32.unpack 0x3F800000 = .num false (2 ^ 23) (-23) ∧ (0x3F800000 : Nat) < 2 ^ Fmt.fp32.width ∧
    Fmt.fp64.unpack 1 = .num false 1 (-1074) := by decide +kernel

theorem witness_classes : (Fmt.fp32.unpack 0x7F800001).isNaN = true ∧ (Fmt.fp32.unpack 0x3F800000).isNaN = false ∧
    (Fmt.bf16.unpack 0xFFFF).isNaN = true ∧ (0xFFFF : Nat) < 2 ^ Fmt.bf16.width := by decide +kernel

theorem fl {s : State} {l : List VName} (h : l.all (fun v => (s.img.v[v.toFin]).full && !s.img.isWindowed (32 + v.toNat)) = true) :
    filled s l := by
  intro v hv
  have := List.all_eq_true.mp h v hv
  simp only [Bool.and_eq_true, Bool.not_eq_true'] at this
  exact ⟨this.1, fun w => absurd w (by simp [this.2])⟩

theorem witness_vectors : ∃ f g q c k, laneForm (.vfshr 15#4 2#4 3#4 true 7#3 3#2) = some f ∧
    fpLaneForm (.vfma 15#4 2#4 3#4 false 0#3 7#3 1#2) = some g ∧ modeOf (one 0 user).img g.rm = some q ∧
    cvtForm (.vfcvtFp8 15#4 2#4 5#4 true 1#3 0#3 0#2) = some c ∧ crossForm (.vgmax 15#4 3#2 2#4 true 1#3 1#2) = some k ∧
    (sourceOf c.c).isSome = true ∧ c.c.toNat < 6 ∧ groupFits (.vgmax 15#4 3#2 2#4 true 1#3 1#2) ∧
    filled (one 0 user) [f.d, f.a, f.b] ∧ filled (one 0 user) [g.d, g.a, g.b] ∧ filled (one 0 user) [c.d, c.a] ∧
    filled (one 0 user) [k.d, k.a, k.b] :=
  ⟨_, _, _, _, _, rfl, rfl, rfl, rfl, rfl, by decide +kernel, by decide +kernel, (by decide : 2 ^ 4 * 16 ≤ 512),
    fl (by decide +kernel), fl (by decide +kernel), fl (by decide +kernel), fl (by decide +kernel)⟩

theorem witness_conversion_refused : ∃ c, cvtForm (.vfcvtInt 15#4 2#4 6#4 true 1#3 0#3 0#2) = some c ∧ c.fpOnly = true ∧
    6 ≤ c.c.toNat ∧ sourceOf 14#4 = none := ⟨_, rfl, rfl, by decide +kernel, rfl⟩

/-- v2 holds a signalling NaN of FP32 in element 0. -/
def strictV : Context := { strict with v := strict.v.set 2 ⟨0x7F800001#512, true⟩ }

theorem witness_vector_exception : ∃ g, fpLaneForm (.vfadd 1#4 2#4 3#4 false 0#3 0#3 2#2) = some g ∧
    (one 0 strictV).img.fpCtrl.extractLsb' 8 5 &&&
      (g.f .rne (elem 32 (vec (one 0 strictV).img 2#4) 0) 0 0).2 = 0b10000#5 ∧ activeIn ((one 0 strictV).img.mask 0#3) 32 0 = true :=
  ⟨_, rfl, by decide +kernel, by decide +kernel⟩

theorem witness_masks : filled (one 0 user) [3#4, 4#4] ∧ (5#3 : BitVec 3).toNat < 6 ∧ 6 ≤ (6#3 : BitVec 3).toNat ∧
    2 ≤ (2#2 : BitVec 2).toNat ∧ (1#2 : BitVec 2).toNat < 2 ∧
    (one 0 user).img.fpCtrl.extractLsb' 8 5 &&& 0b10000#5 = 0#5 :=
  ⟨fl (by decide +kernel), by decide +kernel, by decide +kernel, by decide +kernel, by decide +kernel, by decide +kernel⟩

theorem witness_moves : (one 0 user).readable 6#5 ∧ (one 0 user).img.writable 31#5 ∧ filled (one 0 user) [3#4, 4#4] ∧
    (15#4 : BitVec 4).toNat < 512 / bitsOfSize 2#2 ∧ (7#4 : VName).toNat < 8 :=
  ⟨rd (by decide +kernel), wr (by decide +kernel), fl (by decide +kernel), by decide +kernel, by decide +kernel⟩

set_option maxRecDepth 8000 in
theorem witness_vector_accesses : (one 0 (loaded 0x38000 0 0 0)).readable 5#5 ∧ filled (one 0 (loaded 0x38000 0 0 0)) [3#4, 4#4] ∧
    localOffset .user (cap 0b110110#6 0 0x38000 0x37FC0) true false 0 64 = some 0x37FC0 ∧
    localOffset .user (cap 0b110110#6 0 0x38000 0x37FC0) false false 0 64 = some 0x37FC0 ∧
    clear (one 0 (loaded 0x38000 0 0 0)) .r 0x37FC0 64 ∧ clear (one 0 (loaded 0x38000 0 0 0)) .w 0x37FC0 64 ∧
    accessCheck (cap 0b110110#6 0 0x38000 5) needL 0 64 1 (one 0 user) = .ok (.local 5, one 0 user) ∧
    accessCheck (cap 0b110110#6 0 0x38000 5) needS 0 64 1 (one 0 user) = .ok (.local 5, one 0 user) ∧
    (64 : Nat) = Nat.log2 ((one 0 user).img.mask 0#3).toNat + 1 ∧ (one 0 user).img.mask 0#3 ≠ 0#64 ∧
    localOffset .user (cap 0b110110#6 0 0x38000 0) true false ((15 * 4 : Nat) : Int) 4 = some 60 :=
  ⟨rd (by decide +kernel), fl (by decide +kernel), by decide +kernel, by decide +kernel, cl (by decide +kernel),
    cl (by decide +kernel), rfl, rfl, by decide +kernel, by decide +kernel, by decide +kernel⟩

theorem witness_indexed : (∀ j, j < 64 / 4 → activeIn ((one 0 user).img.mask 0#3) 32 j = true →
      localOffset .user (cap 0b110110#6 0 0x38000 0) true false ((elem 32 (vec (one 0 user).img 4#4) j * 4 : Nat) : Int) 4 = some 0 ∧
      localOffset .user (cap 0b110110#6 0 0x38000 0) false false ((elem 32 (vec (one 0 user).img 4#4) j * 4 : Nat) : Int) 4 = some 0) ∧
    (∃ j, j < 64 / 4 ∧ activeIn ((one 0 user).img.mask 0#3) 32 j = true) ∧ clear (one 0 user) .r 0 4 ∧ clear (one 0 user) .w 0 4 :=
  ⟨by decide +kernel, ⟨15, by decide +kernel, by decide +kernel⟩, cl (by decide +kernel), cl (by decide +kernel)⟩

/-- Two pieces of v3 that have returned, or one that has and one that has not. -/
def gathering (c : Context) (whole : Bool) : State :=
  let part (id : Nat) (b : Body) : Req := ⟨id, 0, 0, 1, none, .core 0, [], b⟩
  { one 0 c with
    reqs := [part 7 (.reply (.v 3#4 5 [(0, 4, 2), (2, 8, 2)]) [1#8, 2#8, 3#8, 4#8] false),
      part 8 (if whole then .reply (.v 3#4 5 [(0, 60, 4)]) [5#8, 6#8, 7#8, 8#8] false else .read 0x100000 4 false (.v 3#4 5 [(0, 60, 4)]))]
    nextId := 9 }

theorem witness_vectors_arrive : ((gathering user true).req 7).any (fun r => r.isReply && r.body.vecGroup == some 5) = true ∧
    (gathering user true).service.curtain = none ∧
    (∀ q ∈ (gathering user true).reqs, q.body.vecGroup = some 5 ∧ q.core = 0 ∧ q.ctx = 0 ∧ q.epoch = 1 ∧ q.isReply = true) ∧
    (∃ q ∈ (gathering user false).reqs, q.body.vecGroup = some 5 ∧ q.isReply = false) ∧
    ((gathering user true).thread 0 0).slot.inCore 0 = true ∧
    ((gathering user true).req 7).any (fun r => (gathering user true).present r) = true ∧
    ((gathering user true).req 7).any (fun r => !({ gathering user true with threads := [] } : State).present r) = true := by
  decide +kernel

/-! ### Tiles, streams, banks -/

/-- x5 a region of 64 bytes at 0x400, x6 and x7 numbers. -/
def tiling (a b : Nat) : Context := having (having (having user 5 (cap 0b110000#6 0x400 64 0)) 6 (num a)) 7 (num b)

theorem witness_tile_declared : (one 0 (tiling 0 0)).readable 5#5 ∧
    (((one 0 (tiling 0 0)).core 0).tile 63).owner = false ∧ (((one 0 (tiling 0 0)).core 0).tile 63).state = 0#2 ∧
    (Quad.cursor ((one 0 (tiling 0 0)).img.sourceVal 5#5).val).toNat % 64 = 0 ∧ wholeElements 4 64 ∧ wholeElements 12 40 ∧
    0x400 + tileRoom 4 64 ≤ 0x38000 ∧
    (∀ b, b < 7 → b * 0x8000 < 0x400 + tileRoom 4 64 ∧ 0x400 < b * 0x8000 + 0x8000 → ((one 0 (tiling 0 0)).core 0).bank b = 0#4) ∧
    (∀ p ∈ ((one 0 (tiling 0 0)).core 0).tiles, p.1 = 63) :=
  ⟨rd (by decide +kernel), by decide +kernel, by decide +kernel, by decide +kernel, by simp [wholeElements],
    ⟨1, by decide⟩, by decide +kernel, by decide +kernel, by decide +kernel⟩

def readyTile : Tile := ⟨false, false, 4#4, 0#11, false, 2#2, 64#18, 0x400#18⟩

/-- Tile 2 of core 0 is there, with segments on stream 255 of stage 0. -/
def tiled (c : Context) (t : Tile) (l : List Segment) : State := { one 0 c with
  cores := [(0, { Core.reset with tiles := [(2, t)] })], stages := [(0, { Stage.reset with streams := [(255, ⟨l, none⟩)] })] }

def segment : Segment := .tile 0 2 1 none false

theorem witness_tiles : ((tiled user readyTile []).core 0).tile 2 = readyTile ∧ (tiled user readyTile []).fenceWaits .m = [] ∧
    (tiled user readyTile []).tileBusy 0 readyTile = false ∧
    ((tiled (tiling 0x400FF 0) readyTile []).img.word 6#5).toNat < 2 ^ 23 ∧
    ((tiled (tiling 0x400FF 0) readyTile []).stage 0).stream 255 = ⟨[], none⟩ ∧
    (((tiled user readyTile (List.replicate 16 segment)).stage 0).stream 255).segs.length = 16 ∧
    ((tiled user { readyTile with owner := true } [segment]).stage 0).holding 0 2 = some 255 ∧
    ((tiled user readyTile []).stage 0).holding 0 2 = none := by decide +kernel

theorem witness_segment : (one 0 (tiling 0x1FFFFFFFFFFFFFF (16 * 2 ^ 32 + 4 * 2 ^ 8))).readable 7#5 ∧
    ((one 0 (tiling 0x1FFFFFFFFFFFFFF (16 * 2 ^ 32 + 4 * 2 ^ 8))).img.word 6#5).toNat < 2 ^ 57 ∧
    ((one 0 (tiling 0 (16 * 2 ^ 32 + 4 * 2 ^ 8))).img.word 7#5).toNat / 2 ^ 8 % 16 = 4 ∧
    ((one 0 (tiling 0 (16 * 2 ^ 32 + 4 * 2 ^ 8))).img.word 7#5).toNat / 2 ^ 32 = 16 ∧ wholeElements 4 16 :=
  ⟨rd (by decide +kernel), by decide +kernel, by decide +kernel, by decide +kernel, by simp [wholeElements]⟩

theorem witness_banks : ((one 0 (tiling 0xF6 0)).img.word 6#5).toNat = 6 + 16 * (15#4 : BitVec 4).toNat ∧
    ((one 0 (tiling 0x37 0)).img.word 6#5).toNat = 7 + 16 * (3#4 : BitVec 4).toNat ∧
    (∀ p ∈ ((one 0 (tiling 0xF6 0)).core 0).tiles, p.2.state = 0#2) ∧ readyTile.state = 2#2 ∧ readyTile.owner = false ∧
    4 ≤ readyTile.format.toNat := by decide +kernel

/-! ### The units of a stage -/

/-- A state whose memory holds words at 0x400 of core 0. -/
def holding' (c : Context) (ws : List (BitVec 32)) : State :=
  { one 0 c with mem := storeBytes [] 0x400 (ws.flatMap fun w => bytesOfNat 4 w.toNat) }

/-- A GEMM of BF16 that reads streams 1 and 2 into rows and columns 0 to 127. -/
def gemm : List (BitVec 32) := [0x00010000#32, 0x00800080#32, 0x00330080#32, 0x00000201#32] ++ List.replicate 12 0#32

theorem gemm_rules : recordRules gemm := by
  simp [recordRules, gemmRow, recBits, gemm]

theorem witness_task : localOffset .user (cap 0b110000#6 0x400 64 0) true false 0 64 = some 0x400 ∧
    wordsOf ((holding' (tiling 0 0) gemm).readBytes (ulmAddr 0 0x400) 64) = gemm ∧ ((one 0 user).stage 0).tasks = [] ∧
    (one 0 user).grade.hasEngine 0 (recBits gemm 0x00 12 15 / 4) = true ∧ (one 0 user).grade.hasCore 0 = true ∧
    (one 0 user).samePart 0 0 = true ∧ (one 0 user).grade.hasCore 10240 = false ∧ (one 0 user).grade.hasCore 64 = true ∧
    (one 0 user).samePart 0 64 = false ∧
    (holding' (tiling 0 0) gemm).fenceWaits .m = [] ∧ (holding' (tiling 0 0) gemm).sameLocation 0x400 64 = [] ∧
    (((holding' (tiling 0 0) gemm).img.sourceVal 5#5) == cap 0b110000#6 0x400 64 0) = true := by decide +kernel

theorem witness_task_refused : (holding' (tiling 0 0) (gemm.set 3 0x01000201#32)).readBytes 0x400 64 ≠ [] ∧
    128 < recBits (gemm.set 3 0x01000201#32) 0x0C 24 30 + recBits (gemm.set 3 0x01000201#32) 0x04 16 31 ∧
    recBits (gemm.set 3 0x01000201#32) 0x00 0 3 = 0 ∧ recBits (gemm.set 3 0x01000201#32) 0x00 8 9 = 0 := by decide +kernel

def task (status : BitVec 3) : Task := ⟨gemm, 0, 4, 0, false, status, 0#7, 0, 0, false, false, none⟩

theorem witness_task_status : ((one 0 (tiling 65535 0)).img.word 6#5).toNat < 65536 ∧ (task 1#3).tag = 1 ∧
    65536 ≤ ((one 0 (tiling 65536 0)).img.word 6#5).toNat ∧ (one 0 user).fenceWaits .m = [] := by decide +kernel

theorem witness_keeper : let s : State := { one 0 (tiling 0xF3 0) with stages := [(0, { Stage.reset with keeper := 0x4000#15 })] }
    s.readable 6#5 ∧ filled s [3#4] ∧ (s.img.word 6#5).toNat = 0xF3 ∧ (s.stage 0).keeper.toNat = 2 ^ 14 + s.cur.1 ∧
      ((s.stage 0).channel 3).fill = false ∧ ((s.stage 0).channel 3).full0 = false ∧ (one 0 user).fenceWaits .m = [] ∧
      ((one 0 user).stage 0).keeper.getLsbD 14 = false :=
  ⟨rd (by decide +kernel), fl (by decide +kernel), by decide +kernel, by decide +kernel, by decide +kernel, by decide +kernel,
    by decide +kernel, by decide +kernel⟩

/-- A copy of tile 2 of the issuing core to tile 9 of core 0, with the status register x31 or none. -/
def command (status : Nat) : List (BitVec 32) := [BitVec.ofNat 32 (2 + 128 * status), 0#32, 2#32, 0#32, 0#32, 0#32, 0#32, 0#32, 0x24000#32] ++
  List.replicate 7 0#32

theorem witness_copy : (∃ c : Command, c.words = command 31 ∧ c.formed = true) ∧ recBits (command 31) 0x00 0 3 = 2 ∧
    recBits (command 31) 0x00 7 11 ≠ 0 ∧ (one 16 user).cur.2 = 16 ∧ recBits (command 31) 0x20 14 19 ≠ recBits (command 31) 0x08 0 5 ∧
    wordsOf ((holding' (tiling 0 0) (command 31)).readBytes (ulmAddr 0 0x400) 64) = command 31 ∧
    rowOf (recBits (command 31) 0x20 0 13) < 80 ∧ ((one 0 user).stage 0).commands.length < 64 ∧ ((one 0 user).stage 0).halted < 2 :=
  ⟨⟨⟨command 31, 0, 0, 1, 0, false, .waiting, 0, [], [], 0, 0#4, [.waiting], none⟩, rfl, by decide +kernel⟩, by decide +kernel,
    by decide +kernel, by decide +kernel, by decide +kernel, by decide +kernel, by decide +kernel, by decide +kernel, by decide +kernel⟩

/-! ### Parts engines, engines, plays, drains, the gate -/

/-- An SBP-4 block: kind 4, eight weights of each code, in their own order. -/
def block4 : List Byte :=
  bytesOfNat 4 0x104 ++ bytesOfNat 4 0x3F800000 ++ List.replicate 16 8#8 ++
    bytesOfNat 112 ((List.range 128).foldl (fun v i => v + i * 2 ^ (7 * i)) 0) ++ bytesOfNat 8 0

theorem witness_parts : block4.length = 144 ∧ (decodeBlock block4).isSome = true ∧
    ({ one 0 (tiling 0 0) with mem := storeBytes [] 0x400 block4 } : State).readBytes 0x400 144 = block4 ∧
    ((one 0 user).stage 0).holds = [] ∧ (((one 0 user).stage 0).engine 3).running = none ∧ (one 0 user).grade.hasEngine 0 3 = true ∧
    (one 0 user).curThread.slot.inCore 0 = true ∧ (one 0 user).curThread.slot.status ≠ .free ∧
    localOffset .user (cap 0b110000#6 0x400 144 0) true false 0 16 = some 0x400 ∧
    ((one 0 (having user 6 (num 31))).img.word 6#5).toNat < 32 := by decide +kernel

set_option maxRecDepth 8000 in
theorem witness_parts_block : accessCheck (cap 0b110000#6 0x400 144 0) needL 0 144 16 (one 0 user) = .ok (.local 0x400, one 0 user) ∧
    clear (one 0 user) .m 0x400 144 := ⟨rfl, cl (by decide +kernel)⟩

/-- Stage 0 with one task, its engine, and streams. -/
def staged (t : Task) (e : Engine) (l : Assoc Stream) : State := { one 0 user with
  cores := [(0, { Core.reset with tiles := [(2, { readyTile with format := 3#4, owner := true, engine := engineName 0 4 })] })]
  stages := [(0, { Stage.reset with tasks := [t], engines := [(0, e)], streams := l })] }

/-- A pending task that the gate has admitted, doomed or not, and the engine it was admitted on. -/
def admitted (doomed : Option Nat) : Task := { task 1#3 with admitted := true, doomed := doomed }

def levelled : Engine := { Engine.reset with level := (task 1#3).level }

theorem witness_task_starts : (∀ x ∈ [none, some 3],
      let s := staged (admitted x) levelled [(1, ⟨[], none⟩), (2, ⟨[], none⟩)]
      (s.stage 0).tasks.find? (s.admittedOpen 0 0) = some (admitted x) ∧ (admitted x).step ((s.stage 0).engine 0) = 0 ∧
        (admitted x).badSlot ((s.stage 0).engine 0) = none) ∧
    (task 1#3).opcode ≠ 2 ∧ 0 < (task 1#3).depth ∧ ({ task 1#3 with words := 2#32 :: gemm.tail } : Task).opcode = 2 := by
  decide +kernel

def busy : Engine := { Engine.reset with running := some 4 }

theorem witness_play : let s := staged (task 2#3) busy [(1, ⟨[.tile 0 2 1 (some 5) false], some 0⟩)]
    (s.stage 0).stream 1 = ⟨[.tile 0 2 1 (some 5) false], some 0⟩ ∧ s.runningTask 0 0 = some (task 2#3) ∧
      ((s.stage 0).engine 0).wants (task 2#3) 1 = some false ∧ ((s.core 0).tile 2).trailer = false ∧
      ((s.core 0).tile 2).format.toNat = (task 2#3).aFormat ∧ (task 2#3).aFormat ≠ 15 ∧
      arrived ((s.stage 0).engine 0).fifoA + (elemCount 3 64).getD 0 ≤ (task 2#3).need false := by decide +kernel

theorem witness_play_returns : (flying 0 user (.segReturn 0 2 (some 5) false)).req 7 =
    some ⟨7, 0, 0, 1, some .m, .core 0, [], .segReturn 0 2 (some 5) false⟩ := by decide +kernel

/-- A GEMM of one row, one column and two steps, and its operands. -/
def small : Task := { task 2#3 with words := [0x00010000#32, 0x00010001#32, 0x00330002#32, 0x00000201#32] ++ List.replicate 12 0#32 }

def fed : Engine := { busy with fifoA := [⟨3#4, [0x80#8, 0x3F#8, 0x80#8, 0x3F#8], []⟩], fifoB := [⟨3#4, [0#8, 0x40#8, 0#8, 0x40#8], []⟩] }

theorem witness_promotion : let s := staged small fed []
    s.runningTask 0 0 = some small ∧ small.block < small.blocks ∧ small.scaleMode ≠ 1 ∧ small.row0 + small.rows ≤ 128 ∧
      small.col0 + small.cols ≤ 128 ∧ small.opcode = 0 ∧
      (small.rows - 1) * small.depth + small.block * small.blockSize + min small.blockSize small.depth ≤ (playValues fed.fifoA).length ∧
      (small.cols - 1) * small.depth + small.block * small.blockSize + min small.blockSize small.depth ≤ (playValues fed.fifoB).length := by
  decide +kernel

/-- The same with the row scales of keeper channel 0, whose first buffer is full. -/
def scaled : Task := { small with words := small.words.set 0 0x00010100#32 }

theorem witness_keeper_promotion : let s := staged scaled fed []
    let t : State := { s with stages := [(0, { s.stage 0 with channels := [(0, { Channel.reset with full0 := true })] })] }
    scaled.scaleMode = 1 ∧ (let c := (t.stage 0).channel scaled.channel; (if c.consume then c.full1 else c.full0) = true) ∧
      t.runningTask 0 0 = some scaled := by decide +kernel

/-- A summation by parts over one group, and its block in slot 0. -/
def partsTask : Task := { task 2#3 with words := [0x00010001#32, 0x00010001#32, 0x00F30080#32, 0x00000201#32] ++ List.replicate 12 0#32 }

def partsFed : Engine := { busy with fifoA := [⟨3#4, List.replicate 256 0#8, []⟩], fifoB := [⟨15#4, block4, []⟩] }

theorem witness_parts_promotion : partsTask.opcode = 1 ∧ partsTask.depth % 128 = 0 ∧ partsTask.block < partsTask.blocks ∧
    (partsTask.sbpBlock partsFed (playBlocks partsFed.fifoB) 0 0).isSome = true ∧ partsTask.cols = 1 ∧
    (playValues partsFed.fifoA).length = 128 := by decide +kernel

/-- The same task with all its blocks added, its drain to tile 2 of core 0 as FP32 taken or not. -/
def ending (drain filling : Bool) : Task := { small with
  block := 1, filling := filling
  words := (if drain then ((small.words.set 0 0x00010400#32).set 1 0x00020002#32).set 6 0x00108000#32 else small.words) }

theorem witness_task_ends : (ending false false).blocks ≤ (ending false false).block ∧ (ending false false).drains = false ∧
    (ending true false).drains = true ∧ (ending true true).filling = true ∧ (ending true true).drainTile = 2 ∧
    (staged (ending true false) fed []).runningTask 0 0 = some (ending true false) ∧ readyTile.state = 2#2 ∧
    sizeFor (ending true true).drainFormat ((ending true true).rows * (ending true true).cols) = some 16 := by decide +kernel

/-- The same drained as FP8, to a tile of four bytes. -/
def endingFp8 : Task := { ending true true with words := (ending true true).words.set 6 0x00408000#32 }

theorem witness_quantised_drain : endingFp8.blocks ≤ endingFp8.block ∧ endingFp8.drains = true ∧ endingFp8.filling = true ∧
    isQuant endingFp8.drainFormat = true ∧ endingFp8.drainTile = 2 ∧
    sizeFor endingFp8.drainFormat (endingFp8.rows * endingFp8.cols) = some ({ readyTile with size := 4#18 } : Tile).size.toNat := by
  decide +kernel

/-- Die 0 before its first ramp, with a task that waits for an engine. -/
def waitingTask : State := staged (task 1#3) Engine.reset []

theorem witness_gate : (waitingTask.firstStep 0).isSome = true ∧ (waitingTask.die 0).ramps = [] ∧
    (∀ r ∈ waitingTask.firstStep 0, 0 < (rampOf waitingTask 0 (r.task.step ((waitingTask.stage r.stage).engine r.engine))).length ∧
      slope (rampOf waitingTask 0 (r.task.step ((waitingTask.stage r.stage).engine r.engine))) ≤ ((waitingTask.die 0).didt.toNat : Rat)) := by
  decide +kernel

/-! ### Copy commands -/

/-- Stage 0 with one copy command of the words given. -/
def copying (c : Command) : State := { one 0 user with
  cores := [(0, { Core.reset with tiles := [(2, readyTile), (9, { readyTile with base := 0x800#18 })] })]
  stages := [(0, { Stage.reset with commands := [(3, c)] })]
  tlbs := [(16384, [(0, page 0x10000 4#3)])]
  parts := [(0, { Partition.absent with stages := [0], frames := [(0, 16)] })] }

def copyOf (ws : List (BitVec 32)) (source : CopySource) (dest : CopyDest) : Command :=
  ⟨ws, 0, 0, 1, 0, true, source, 2, [], if source = .ready then List.replicate 64 1#8 else [], 0, 0#4, [dest], none⟩

/-- A copy from DRAM, of 64 bytes at 0x10000, and one from ULM. -/
def fromDram : List (BitVec 32) := [0#32, 64#32, 0x10000#32, 0#32, 0#32, 0#32, 0#32, 0#32, 0x24000#32] ++ List.replicate 7 0#32
def fromUlm : List (BitVec 32) := 3#32 :: fromDram.tail

theorem witness_copy_sources : ((copying (copyOf (command 0) .waiting .waiting)).stage 0).commands = [(3, copyOf (command 0) .waiting .waiting)] ∧
    recBits (copyOf fromUlm .waiting .waiting).words 0x00 0 3 = 3 ∧ recBits (copyOf (command 0) .draining .waiting).words 0x00 0 3 = 2 ∧
    ({ copyOf fromDram .waiting .waiting with started := false } : Command).started = false ∧ readyTile.trailer = false ∧
    readyTile.state = 2#2 ∧ readyTile.owner = false := by decide +kernel

theorem witness_copy_from_dram : let s := copying (copyOf fromDram .moving .waiting)
    s.commandSO 0 (copyOf fromDram .moving .waiting) = false ∧
    s.look (.copy 0) (s.contextOfStage 0) 0x10000 4#3 = .hit there ∧ 64 ≤ there.run ∧ 64 ≤ there.page - there.phys % there.page ∧
    (s.dramRead false there 64).1 = .ok (List.replicate 64 0#8) ∧ ((s.dramRead false there 64).2.stage 0).commands = (s.stage 0).commands := by
  decide +kernel

/-- A drain to DRAM, with 64 bytes to write, 16 of them written, or none. -/
def toDram : List (BitVec 32) := 4#32 :: fromDram.tail

def writingBack (done : Nat) : Command := { copyOf toDram .moving .waiting with data := List.replicate 64 9#8, done := done }

theorem witness_copy_to_dram : let s := copying (writingBack 32)
    recBits toDram 0x00 0 3 = 4 ∧ s.commandSO 0 (writingBack 32) = false ∧ s.strayCounter (writingBack 32) = false ∧
    (let u : State := { s with tlbs := [(16384, [(0, page 0x10000 2#3)])] }
     u.look (.copy 0) (u.contextOfStage 0) 0x10020 2#3 = .hit { there with va := 0x10020, phys := 0x10020 } ∧
     32 ≤ ({ there with va := 0x10020, phys := 0x10020 } : DramAt).run ∧
     (u.dramWrite unitTask { there with va := 0x10020, phys := 0x10020 } (List.replicate 32 9#8)).1 = .ok ()) := by
  decide +kernel

/-- A tile with a trailer that agrees with its 64 zero bytes of FP8, and one without agreement. -/
def sealed : Tile := { readyTile with trailer := true }

def trailed (good : Bool) : State :=
  let s := copying (copyOf (command 0) .draining .waiting)
  { s with
    cores := [(0, { Core.reset with tiles := [(2, sealed)] })]
    mem := if good then storeBytes [] 0x440 (trailerOf 4 ⟨List.replicate 64 0#8, 0, 0⟩) else [] }

theorem witness_copy_trailers :
    trailerOk 4 (List.replicate 64 0#8) ((trailed true).readBytes (ulmAddr 0 0x440) 16) = true ∧
    ((trailed true).core 0).tile 2 = sealed ∧ (trailed true).readBytes (ulmAddr 0 0x400) 64 = List.replicate 64 0#8 ∧
    trailerOk 4 (List.replicate 64 0#8) ((trailed false).readBytes (ulmAddr 0 0x440) 16) = false := by decide +kernel

theorem witness_copy_destinations : ((copying (copyOf fromDram .ready .waiting)).stage 0).commands.find 3 = some (copyOf fromDram .ready .waiting) ∧
    (copyOf fromDram .ready .waiting).dests[0]? = some .waiting ∧ isCore 0 = true ∧ (copying (copyOf fromDram .ready .waiting)).sameStage 0 0 = true ∧
    ((copying (copyOf fromDram .ready .filling)).core 0).tile 9 = { readyTile with base := 0x800#18 } ∧
    (copyOf fromDram .ready .filling).data.length = readyTile.size.toNat ∧
    (copying (copyOf fromDram .ready .waiting)).sameStage 0 (stageOf 8) = false ∧
    (copying (copyOf fromDram .ready .waiting)).grade.hasCore 64 = true ∧ readyTile.size ≠ 0#18 ∧
    (∀ d ∈ (copyOf fromDram .ready .filled).dests, d = .filled ∨ d = .failed) ∧
    ((copying (copyOf fromDram .ready .filled)).thread 0 0).slot.epoch = (copyOf fromDram .ready .filled).epoch ∧
    ((copying (copyOf fromDram .ready .filled)).thread 0 0).slot.status ≠ .free := by decide +kernel

/-- A copy of 64 elements of BF16 into tile 9 of another format and size. -/
def converting (f : BitVec 4) (size : Nat) : State × Command :=
  let c : Command := { copyOf (command 0) .ready .filling with data := List.replicate 128 0x3F#8, format := 3#4 }
  ({ copying c with cores := [(0, { Core.reset with tiles := [(9, { readyTile with base := 0x800#18, format := f, size := BitVec.ofNat 18 size })] })] }, c)

theorem witness_converted_destinations : recBits (converting 4#4 64).2.words 0x00 0 3 = 2 ∧
    (elemCount 3 (converting 4#4 64).2.data.length).bind (sizeFor 4) = some 64 ∧
    (elemCount 3 128).bind (sizeFor 1) = some 256 ∧ (elemCount 3 128).bind (sizeFor 4) ≠ some 128 ∧
    (((converting 4#4 64).1.core 0).tile 9).size.toNat = 64 ∧ (((converting 15#4 64).1.core 0).tile 9).format.toNat = 15 ∧
    (((converting 3#4 64).1.core 0).tile 9).size.toNat ≠ (converting 3#4 64).2.data.length ∧
    (copyOf (command 0) (.failed Cause.trailerChecksum 0#64 2#64) .filling).source = .failed Cause.trailerChecksum 0#64 2#64 ∧
    (copyOf toDram .ready .waiting).dests[0]? = some .waiting := by decide +kernel

/-! ### Rays -/

/-- The descriptor of a ray from the origin along z, with a root or none. -/
def descriptor (root : BitVec 32) : List (BitVec 32) :=
  [0#32, 0#32, 0#32, 0#32, 0#32, 0#32, 0x3F800000#32, 0x7F800000#32, 0#32, 0#32, root, 0#32, 0#32, 0#32, 0#32, 0#32]

/-- Ray slot 1023 of stage 0, open or running, with source 7 as given, and the context that names it. -/
def ray (status : BitVec 4) (x : RaySource) : Ray :=
  { Ray.free with status := status, desc := descriptor 0#32, sources := (List.replicate 7 ⟨false, false, 0#32, 0#14, 0#8⟩) ++ [x] }

def handle (src : Nat) : Nat := handleWord 0 1023 1 src

def tracing (c : Context) (r : Ray) : State := { one 0 c with stages := [(0, { Stage.reset with rays := [(1023, r)] })] }

def pointing (src b : Nat) : Context := having (having user 6 (num (handle src))) 7 (num b)

def source (registered done : Bool) : RaySource := ⟨registered, done, 0#32, 0#14, 0#8⟩

theorem witness_rays : (tracing (pointing 7 0) (ray 1#4 (source false false))).readable 6#5 ∧
    (tracing (pointing 7 0) (ray 1#4 (source false false))).readable 7#5 ∧
    names (tracing (pointing 7 0) (ray 1#4 (source false false))) (BitVec.ofNat 64 (handle 7)) 0 1023 7 ∧
    ((tracing (pointing 7 0) (ray 1#4 (source false false))).img.word 6#5) = BitVec.ofNat 64 (handle 7) ∧
    ((tracing (pointing 7 0) (ray 2#4 (source true false))).stage 0).ray 1023 = ray 2#4 (source true false) ∧
    (ray 2#4 (source true false)).sources.getD 7 (source false false) = source true false ∧
    (ray 1#4 (source true false)).owner = 0 ∧ isCore (0 % 2 ^ 14) = true :=
  ⟨rd (by decide +kernel), rd (by decide +kernel), by unfold names; decide +kernel, by decide +kernel, by decide +kernel,
    by decide +kernel, by decide +kernel, by decide +kernel⟩

/-- An answer: the interval from 1 to 2. -/
def answer : List Byte := bytesOfNat 4 0x3F800000 ++ bytesOfNat 4 0x40000000 ++ List.replicate 24 0#8

theorem witness_answer : (decodeAnswer answer).isSome = true ∧
    (∀ ans ∈ decodeAnswer answer, le32 (source true false).settled ans.t0 = true) ∧ isNaN32 (0x7F800000#64 : Word).toNat = false := by
  decide +kernel

theorem witness_ray_stops : let s := tracing (pointing 0 0) (ray 2#4 (source true false))
    (((s.pop 6#5).settleRay 0 1023 (ray 2#4 (source true false))).stage 0).ray 1023 = ray 2#4 (source true false) := by decide +kernel

theorem witness_ray_handles : 2 ^ 32 ≤ ((one 0 (having user 6 (num (2 ^ 32)))).img.word 6#5).toNat ∧
    ((tracing (pointing 0 0) Ray.free).img.word 6#5).toNat = handleWord 0 1023 1 0 ∧
    (((tracing (pointing 0 0) Ray.free).stage 0).ray 1023).status = 0#4 ∧
    (((tracing (pointing 0 0) { ray 1#4 (source false false) with gen := 2#14 }).stage 0).ray 1023).gen.toNat ≠ 1 := by decide +kernel

theorem witness_ray_values : descFail (descriptor 0#32) = none ∧ descFail (descriptor 0x80#32) = none ∧
    wordsOf ((holding' (tiling 0 0) (descriptor 0x80#32)).readBytes 0x400 64) = descriptor 0x80#32 ∧
    (one 0 user).travUpdating 0 = false ∧ ((one 0 user).stage 0).freeRays ≠ [] ∧ (sprdWord (ray 1#4 (source true false)) 4 7).isSome = true ∧
    (sprdWord (ray 1#4 (source true false)) 7 15).isSome = true ∧ (sprdWord (ray 1#4 (source true false)) 0 0).isSome = true ∧
    (flying 0 user (.reply (.x 5#5 8 false false) (bytesOfNat 8 1) false)).present
      ⟨7, 0, 0, 1, some .m, .core 0, [], .reply (.x 5#5 8 false false) (bytesOfNat 8 1) false⟩ = true := by decide +kernel

/-- A running ray with a walk. -/
def walking (current : Option Pending) (pending : List Pending) : Ray :=
  { ray 2#4 (source false false) with
    desc := descriptor 0x10000#32
    sources := source true false :: List.replicate 7 (source false false)
    walk := some ⟨0x10000, pending, none, false, current, none⟩ }

def rootEntry : Pending := ⟨0#32, 0x10000, 0, 0, false⟩

theorem witness_walk_step : (walking none [rootEntry]).walk = some ⟨0x10000, [rootEntry], none, false, none, none⟩ ∧
    nearest [rootEntry] = some rootEntry ∧ (walking none [rootEntry]).spans = [] ∧ (walking none [rootEntry]).clip = none ∧
    lt32 0x7F800000#32 rootEntry.tn = false ∧ (source true false).registered = true := by decide +kernel

/-- A node with one internal child, whose box is the unit cube (15 R289). -/
def node : List Byte := List.replicate 12 0#8 ++ [127#8, 127#8, 127#8, 1#8] ++ List.replicate 24 0#8 ++ [1#8] ++
  List.replicate 15 0#8 ++ [1#8] ++ List.replicate 15 0#8 ++ [1#8] ++ List.replicate 55 0#8

def fetching' : State := { tracing user (walking (some rootEntry) []) with
  dram := storeBytes [] 0x10000 node
  tlbs := [(16544, [(0, page 0x10000 4#3)])]
  parts := [(0, { Partition.absent with stages := [0], frames := [(0, 16)] })] }

/-- The bytes a fetch brings. -/
def Fetched.bytes? : Fetched → List Byte
  | .bytes bs _ => bs
  | _ => []

theorem witness_walk_fetch : Fetched.bytes? (fetching'.walkFetch 0 1023 0x10000 128) = node ∧ badNode 0x10000 node = false ∧
    ((validChildren node).filterMap ((walking (some rootEntry) []).childHit 0x10000 node)).length = 1 ∧ rootEntry.kind = 0 := by
  decide +kernel

theorem witness_walk_unchanged : (match fetching'.walkFetch 0 1023 0x10000 128 with
    | .bytes _ u => (u.stage 0).ray 1023 == walking (some rootEntry) []
    | _ => false) = true := by decide +kernel

theorem witness_traversal_contexts : ((tracing user (ray 2#4 (source true false))).stage 0).rays = [(1023, ray 2#4 (source true false))] ∧
    (ray 2#4 (source true false)).ctx = 0 ∧ (ray 2#4 (source true false)).status = 2#4 ∧ (2 ^ 64 - 1 : Nat) < 2 ^ 64 := by decide +kernel

/-! ### The span list -/

/-- A piece from 1 to 3 that an answer of 1 to 3 made, as an interval or merged. -/
def piece (f : SpanForm) : Span :=
  { (contribution ⟨0x3F800000#32, 0x40400000#32, 0x3C00#16, (0#16, 0#16, 0x3800#16), 9#8, 1#3, 2#16, 3#64⟩).piece 0x3F800000#32 0x40400000#32 with
    form := f }

/-- A surface at 2, clear or opaque, and intervals. -/
def surfaceAt (tau : BitVec 16) : Answer := ⟨0x40000000#32, 0x40000000#32, tau, (0#16, 0#16, 0x3800#16), 9#8, 1#3, 2#16, 3#64⟩
def intervalOf (t0 t1 : BitVec 32) : Answer := ⟨t0, t1, 0x3C00#16, (0#16, 0#16, 0x3800#16), 8#8, 2#3, 4#16, 5#64⟩

def listed (l : List Span) : Ray := { ray 2#4 (source true false) with spans := l }

theorem witness_surface_inserted : eq32 (surfaceAt 0x3C00#16).t0 (surfaceAt 0x3C00#16).t1 = true ∧
    lt32 (surfaceAt 0x3C00#16).t0 (clipRange (listed [piece .interval])).1 = false ∧
    lt32 (clipRange (listed [piece .interval])).2 (surfaceAt 0x3C00#16).t0 = false ∧
    eq32 (surfaceAt 0x7C00#16).t0 (surfaceAt 0x7C00#16).t1 = true ∧
    lt32 (surfaceAt 0x7C00#16).t0 (clipRange (listed [piece .interval])).1 = false ∧
    lt32 (clipRange (listed [piece .interval])).2 (surfaceAt 0x7C00#16).t0 = false ∧
    (listed [piece .interval]).clip = none ∧ (val16 (surfaceAt 0x3C00#16).tau).isInf = false ∧ (val16 (surfaceAt 0x7C00#16).tau).isInf = true ∧
    (∀ x ∈ [piece .interval], x.covers 0x40000000#32 0x40000000#32 = false ∧ (val32 x.a).isNaN = false ∧ (val32 x.b).isNaN = false) ∧
    ([piece .interval].flatMap (splitAt (bound32 0x40000000#32))).length = 2 := by decide +kernel

theorem witness_interval_inserted : eq32 (intervalOf 0x3F800000#32 0x40400000#32).t0 (intervalOf 0x3F800000#32 0x40400000#32).t1 = false ∧
    (piece .interval).form = .interval ∧ (piece .interval).a = 0x3F800000#32 ∧ (piece .interval).b = 0x40400000#32 ∧
    lt32 (bound32 (max32 0x3F800000#32 (clipRange (listed [])).1)) (bound32 (min32 0x40400000#32 (clipRange (listed [])).2)) = true ∧
    bound32 (max32 0x3F800000#32 (clipRange (listed [])).1) = 0x3F800000#32 ∧
    bound32 (min32 0x40400000#32 (clipRange (listed [])).2) = 0x40400000#32 ∧
    lt32 (piece .interval).a 0x40000000#32 = true ∧ lt32 0x40200000#32 (piece .interval).b = true ∧
    lt32 (bound32 (max32 0xBF800000#32 (clipRange (listed [])).1)) (bound32 (min32 0x80000000#32 (clipRange (listed [])).2)) = false := by
  decide +kernel

/-- Sixteen surfaces at 1, 1 1/16, and so on, all before 2. -/
def sixteen : List Span := (List.range 16).map fun i =>
  { (surfaceAt 0x3C00#16).surface with a := BitVec.ofNat 32 (0x3F800000 + 0x80000 * i), b := BitVec.ofNat 32 (0x3F800000 + 0x80000 * i) }

theorem witness_spans_merged : (piece .merged).form = .merged ∧ (listed [piece .merged]).overflow ≠ 255#8 ∧
    le32 (piece .merged).a 0x40000000#32 = true ∧ lt32 0x40000000#32 (piece .merged).b = true ∧ sixteen.dropLast.length = 15 ∧
    sixteen.Pairwise (fun x y => lt32 x.a y.a = true) ∧
    (∀ y ∈ sixteen, lt32 y.a (surfaceAt 0x3C00#16).t0 = true ∧ (y.form = .surface ∨ le32 y.b (surfaceAt 0x3C00#16).t0 = true)) := by
  decide +kernel

/-- The sources are settled to 2, and the front has a share left. -/
def settled (front : BitVec 32) (l : List Span) : Ray :=
  { listed l with front := front, sources := [{ source true false with settled := 0x40000000#32 }] }

theorem witness_spans_consumed : (settled 0x3F800000#32 [piece .interval]).bound = 0x40000000#32 ∧
    le32 (piece .interval).b 0x40000000#32 = false ∧ lt32 (sixteen.headD (piece .merged)).a 0x40000000#32 = true ∧
    le32 (settled 0x3F800000#32 []).threshold
      (sub32 one32 (consumed (settled 0x3F800000#32 []) (sixteen.headD (piece .merged)) [piece .interval]).front) = false ∧
    le32 (settled 0x3A000000#32 []).threshold
      (sub32 one32 (consumed (settled 0x3A000000#32 []) (sixteen.headD (piece .merged)) [piece .interval]).front) = true ∧
    (settled 0#32 []).status = 2#4 ∧ ((settled 0#32 []).desc32 9).setWidth 8 = 0#8 ∧
    (∀ z ∈ (settled 0#32 []).sources, z.noticeCls = 0#8) := by decide +kernel

/-! ### Samples and work graphs -/

def sampling (v : Quad) : Atomic := ⟨.vbmin, 16, v, 0#128, 0x100, none, .x 5#5 8 false false, false, 0#6⟩

theorem witness_visibility : ((inboxed (sampling 0xBF800000#128)).core 0).queues.inbox = .atomic 7 :: [] ∧
    ((inboxed (sampling 0xBF800000#128)).core 0).activation = none ∧
    little ((List.range 16).map fun k => (inboxed (sampling 0xBF800000#128)).readByte (0x100 + k)) = 0 := by decide +kernel

theorem witness_sample_wins : winsSample 0xBF800000#128 0#128 ∧ ¬ winsSample 0x7FC00000#128 0#128 ∧ ¬ winsSample 0x80000000#128 0#128 := by
  unfold winsSample
  decide +kernel

/-- The descriptors of a handler node of class 255 on core 0, and of raster queue 63 of unit 3 of die 0. -/
def handlerWords : List (BitVec 32) := [BitVec.ofNat 32 (256 * 255), BitVec.ofNat 32 (2 ^ 14 * 63), 0#32, 0#32]
def rasterWords : List (BitVec 32) := [5#32, BitVec.ofNat 32 (12 + 16 * 63), BitVec.ofNat 32 (2 ^ 14 * 63 + 2 ^ 20 * 4095), 0#32]

theorem witness_nodes : handlerNode handlerWords 255 0 63 ∧ rasterNode rasterWords true 0 3 63 0 63 4095 ∧
    wordsOf ((holding' (tiling 0 0) handlerWords).readBytes (ulmAddr 0 0x400) 16) = handlerWords ∧
    wordsOf ((holding' (tiling 0 0) rasterWords).readBytes (ulmAddr 0 0x400) 16) = rasterWords ∧
    localOffset .user (cap 0b110000#6 0x400 64 0) true false 0 16 = some 0x400 ∧ (one 0 user).grade.noRaster.contains 3 = false ∧
    ((one 0 user).outbound 0).length < 8 ∧ (((one 0 user).die 0).queue 3 63).opened = false := by
  refine ⟨by unfold handlerNode; decide +kernel, by unfold rasterNode; decide +kernel, ?_⟩
  decide +kernel

set_option maxRecDepth 8000 in
theorem witness_records : accessCheck (cap 0b100000#6 0x800 256 0) needL 0 256 16 (one 0 user) = .ok (.local 0x800, one 0 user) ∧
    accessCheck (cap 0b100000#6 0x800 64 0) needL 0 64 16 (one 0 user) = .ok (.local 0x800, one 0 user) ∧
    clear (one 0 user) .m 0x800 256 ∧ clear (one 0 user) .m 0x800 64 := ⟨rfl, rfl, cl (by decide +kernel), cl (by decide +kernel)⟩

/-- An open raster queue with a record, or none. -/
def raster (l : List (Nat × Nat × List (BitVec 32))) (left : Nat) : RasterQueue := ⟨rasterWords, true, left, l, 1, 0, none, none⟩

def drawing (q : RasterQueue) : State := { one 0 user with dies := [(0, { Die.reset with queues := [(3 * 64 + 63, q)] })] }

/-- A batch of one triangle over one vertex, on a target of one sample. -/
def batch : List (BitVec 32) := [0x10000#32, 0#32, 0x10010#32, 0#32, 0#32, 0#32, 0x10020#32, 0#32, 0#32, 0#32, 0x00010001#32] ++
  List.replicate 5 0#32

theorem witness_raster : ((drawing (raster [(0, 0, batch)] 1)).die 0).queue 3 63 = raster [(0, 0, batch)] 1 ∧
    decodeBatch (List.replicate 16 0#32) = none ∧ (decodeBatch batch).isSome = true ∧ (raster [] 0).records = [] ∧
    (raster [] 0).left = 0 ∧ (raster [] 0).opened = true ∧ ((drawing (raster [] 0)).die 0).queue 3 63 = raster [] 0 := by decide +kernel

/-- The same with the batch's page mapped for the unit. -/
def drawn : State := { drawing (raster [(0, 0, batch)] 1) with
  tlbs := [((TlbId.raster 0 3).key, [(0, page 0x10000 6#3)])]
  parts := [(0, { Partition.absent with stages := [0], frames := [(0, 16)] })] }

theorem witness_raster_reads : (match drawn.pullBytes (.raster 0 3) 0 (extentAt 0x10010 6) 6 6 [] with
    | (ix, .done, s1) => match s1.pullBytes (.raster 0 3) 0 (extentAt 0x10000 16) 16 16 [] with
      | (vs, .done, s2) => match decodeBatch batch with
        | some b => match batchSamples b vs ix with
          | some l => match State.writeSamples (.raster 0 3) 0 l s2 with
            | (_, .done, s3) => (s3.die 0).queue 3 63 == raster [(0, 0, batch)] 1
            | _ => false
          | none => false
        | none => false
      | _ => false
    | _ => false) = true := by decide +kernel

theorem witness_sample_read : ∃ bs u, drawn.dramRead false there 16 = (.ok bs, u) := ⟨_, _, rfl⟩

/-! ### Control registers, traps, returns -/

theorem witness_control_registers : access .user 0x000 = .rw ∧ access .user 0x010 = .ro ∧ access .user 0x020 = .denied ∧
    access .supervisor 0x073 = .denied ∧ access .firmware 0x083 = .rw ∧ access .user 0x084 = .absent ∧ access .supervisor 0x008 = .rw ∧
    (one 0 user).img.writable 31#5 ∧ (one 0 user).readable 6#5 ∧ access .user 0x7FF = .absent ∧ (one 0 user).fenceWaits .r = [] :=
  ⟨by decide, by decide, by decide, by decide, by decide, by decide, by decide, wr (by decide +kernel), rd (by decide +kernel), by decide,
    by decide +kernel⟩

theorem witness_bank_free : bankFree (one 0 user) 6 15#4 ∧ bankFree (one 0 user) 7 3#4 ∧ ¬ bankFree (tiled user readyTile []) 0 15#4 := by
  unfold bankFree meets
  decide +kernel

/-- A context in a trap handler, and one whose x29 is on its way. -/
def nested : Context := { at' 0x100 .supervisor with trap := ⟨0x30#7, 0x40#18, 0#64, 0x20#8⟩ }

theorem witness_traps : ((one 0 user).thread 0 0).pendingX 29#5 = false ∧ ((one 0 (user.emptied 29#5)).thread 0 0).pendingX 29#5 = true ∧
    nested.trap.stat.getLsbD 5 = true ∧ (0x30#7 : BitVec 7).toNat / 16 ≠ 7 ∧ (0x7F#7 : BitVec 7).toNat / 16 = 7 ∧
    ((one 16 user).core 0).regs.trapSave.toNat * 256 + 16 * 256 < 2 ^ 57 := by decide +kernel

theorem witness_returns : (one 0 nested).img.mode = .supervisor ∧ nested.trap.stat.toNat % 4 = 0 ∧ nested.trap.pc.toNat % 2 = 0 ∧
    (one 0 user).img.mode = .user ∧ (1 : Nat) < ({ nested.trap with stat := 0x22#8 } : TrapRegs).stat.toNat % 4 ∧
    (one 0 (at' 0x100 .firmware)).img.mode ≠ .user ∧ (one 0 nested).img.mode ≠ .firmware := by decide +kernel

/-- A thread with a deferred cause, one that waits for an event, and an activation over its budget. -/
def deferred : Thread := { running user with slot := { (running user).slot with deferred := [⟨0x32#7, 5#64, 0#7⟩] } }

theorem witness_boundaries : deferred.slot.deferred = [⟨0x32#7, 5#64, 0#7⟩] ∧ deferred.img.trap.stat.getLsbD 5 = false ∧
    deferred.slot.held = false ∧ deferred.pendingX 29#5 = false ∧ deferred.slot.resident = true ∧ deferred.slot.atBoundary = true ∧
    deferred.slot.soft = none ∧ (one 0 user).readyTask 0 = some 0 ∧ ((one 0 user).thread 0 0).pendingX 29#5 = false ∧
    (one 16 user).cur.2 = 16 ∧ ((one 16 user).thread 0 16).slot.status = .ready ∧ ((one 16 user).thread 0 16).slot.held = false ∧
    Core.reset.regs.hndBudget ≠ 0#32 ∧ Core.reset.regs.hndBudget.toNat < 0 + (65537 - 0) ∧ Core.reset.regs.lastIssue + 2 ^ 28 ≤ 2 ^ 28 ∧
    ((grouped (.groupAnswer 9#16 .ok 0#5)).thread 0 0).slot.status = .blocked := by decide +kernel

/-! ### The shadow contexts -/

/-- Slot 15 resident and blocked since cycle 0, and slot 3 ready in the wings. -/
def swapping (cycle : Nat) : State := { one 0 user with
  threads := [(15, { running user with slot := { (running user).slot with status := .blocked } }),
    (3, { running user with slot := { (running user).slot with resident := false } })], cycle := cycle }

theorem witness_swaps : ((swapping 256).core 0).swap = none ∧
    (∀ j, j < 16 → j ≠ 15 → ((swapping 256).thread 0 j).slot.resident = false) ∧
    ((swapping 256).thread 0 3).slot.status = .ready ∧ (swapping 256).slotHeld 0 3 = false ∧
    (∀ j, j < 16 → j ≠ 3 → ((swapping 256).thread 0 j).slot.status ≠ .ready ∨ ((swapping 256).thread 0 j).slot.resident = true) ∧
    ((swapping 256).thread 0 15).slot.resident = true ∧
    (∀ g : Fin 4, (((swapping 256).thread 0 15).img.gens[g]).append = true → (((swapping 256).thread 0 15).img.gens[g]).pending = []) ∧
    ((swapping 256).thread 0 15).slot.since + 256 ≤ (swapping 256).cycle ∧
    ((swapping 65536).thread 0 15).slot.residentAt + 65536 ≤ (swapping 65536).cycle := by decide +kernel

theorem witness_scope_miss : let s : State := { one 0 user with
      cores := [(0, { Core.reset with queues := { Core.reset.queues with pubs := [⟨3, .system, [⟨7, 0x100000, 1, false, some 4096⟩]⟩] } })]
      reqs := [⟨7, 0, 0, 1, none, .system, [], .scopeMiss 0x100000 ([1#8].map some) false 3 false⟩] }
    (s.core 0).queues.pubs = [⟨3, .system, [⟨7, 0x100000, 1, false, some 4096⟩]⟩] ∧ s.reqs.length = 1 ∧ s.preempted 0 = false ∧
      (∀ q ∈ s.reqs, q.core = 0 → q.ctx = 17 → q.body.isWrite = false) ∧ s.passing 5000 = 4096 := by decide +kernel

/-! ### TLBs, held slots, the curtain -/

def supervisor : Context := at' 0x100 .supervisor

/-- The entry that maps the page at 0x10000, and one that denies it. -/
def mapping : Quad := BitVec.ofNat 128 (2 ^ 127 + 0x10000 + 2 ^ 64 + 7 * 2 ^ 109 + 2 ^ 120)

/-- A table of three entries of two contexts, in the TLB of core 0 and of the units of stage 0 and of a raster unit of die 0. -/
def entries : Assoc TlbEntry := [(2, ⟨0, mapping⟩), (3, ⟨5, mapping⟩), (31, page 0x20000 7#3)]

def mapped (c : Context) : State := { one 0 c with tlbs := [(0, entries), (16384, entries), (16544, entries), ((TlbId.raster 0 3).key, entries)] }

theorem witness_tlb_entries : entryOk mapping ∧ ¬ entryOk 0#128 ∧ (one 0 supervisor).img.mode ≠ .user ∧ (one 0 supervisor).readable 6#5 ∧
    (one 0 supervisor).samePart 0 0x387 = true ∧ (one 0 supervisor).samePart 0 8 = false ∧ (0x1F0387#64 : Word).getLsbD 21 = false :=
  ⟨by unfold entryOk; decide +kernel, by unfold entryOk; decide +kernel, by decide +kernel, rd (by decide +kernel),
    by decide +kernel, by decide +kernel, by decide +kernel⟩

theorem witness_tlb_named : tlbNamed Grade.full 0x1F0387 = some (.core 0x387) ∧ tlbNamed Grade.full (2 ^ 62 + 4) = some (.copy 0) ∧
    tlbNamed Grade.full (2 ^ 62 + 5) = some (.trav 0) ∧ tlbNamed Grade.full (2 * 2 ^ 62 + 12) = some (.raster 0 3) ∧
    tlbNamed Grade.full (3 * 2 ^ 62) = none ∧ tlbNamed Grade.full (2 ^ 22) = none ∧ tlbNamed Grade.full (80 * 128) = none ∧
    tlbNamed Grade.full (2 ^ 62 + 512 * 3 + 4) = some (.copy 120) := by decide +kernel

theorem witness_tlb_units : (∀ T ∈ [TlbId.core 0, .copy 0, .trav 0, .raster 0 3], rising ((mapped supervisor).tlb T) ∧
      (mapped supervisor).tlb T = entries) ∧
    unitMine (mapped supervisor) (.core 0) ∧ ¬ unitMine (mapped supervisor) (.core 8) ∧ unitMine (mapped supervisor) (.copy 0) ∧
    unitMine (mapped supervisor) (.raster 0 3) ∧ unitContext (mapped supervisor) 0 (.core 0) ∧ unitContext (mapped supervisor) 0 (.trav 0) ∧
    unitContext (mapped supervisor) 0 (.raster 0 3) := by
  refine ⟨by unfold rising; decide +kernel, rfl, by unfold unitMine; decide +kernel, rfl, ⟨0, rfl, 0, by decide, rfl⟩, rfl, rfl, ?_⟩
  exact ⟨fun r h => absurd h (by simp [mapped, one, State.reset]), .inl rfl⟩

/-- The page is mapped by the first entry for context 0 alone, and overlaps what TLBW writes. -/
theorem witness_tlb_maps : maps mapping 0x1FFFF ∧ ¬ maps mapping 0x20000 ∧ maps (page 0x20000 7#3).bits 0x20000 ∧
    (∀ i x, (i, x) ∈ (mapped supervisor).tlb (.core 0) → x.ctx = 0 → maps x.bits 0x10000 → x = ⟨0, mapping⟩) ∧
    (∀ i x, (i, x) ∈ (mapped supervisor).tlb (.core 0) → x.ctx = 0 → ¬ maps x.bits 0x50000) := by
  have h : (mapped supervisor).tlb (.core 0) = entries := rfl
  rw [h]
  refine ⟨by unfold maps; decide +kernel, by unfold maps; decide +kernel, by unfold maps; decide +kernel, ?_, ?_⟩ <;>
    · intro i x hx
      simp only [entries, List.mem_cons, List.not_mem_nil, or_false, Prod.mk.injEq] at hx
      obtain ⟨-, rfl⟩ | ⟨-, rfl⟩ | ⟨-, rfl⟩ := hx <;> unfold maps <;> decide +kernel

theorem witness_invalidation : ((one 0 (having supervisor 6 (num (2 ^ 57)))).img.word 6#5).toNat / 2 ^ 57 % 64 ≠ 0 ∧
    ((one 0 (having supervisor 6 (num (2 ^ 63 + 0x10000)))).img.word 6#5).getLsbD 63 = true ∧
    ((one 0 (having supervisor 6 (num (2 ^ 63 + 0x10000)))).img.word 6#5).toNat / 2 ^ 57 % 64 = 0 ∧
    ((one 0 (having supervisor 6 (num 0x10000))).img.word 6#5).getLsbD 63 = false ∧ (one 0 supervisor).reqs = [] ∧
    stageOf (one 0 supervisor).cur.1 < 160 ∧
    (∃ q ∈ (flying 0 supervisor (.atomic { adding .cas 8 1 0 (some there) with addr := 0x10008 })).reqs, stageOf q.core = 0 ∧
      ∃ x p, q.body = .atomic x ∧ x.phys = some p ∧ x.addr / p.page = 0x10000 / p.page) :=
  ⟨by decide +kernel, by decide +kernel, by decide +kernel, by decide +kernel, rfl, by decide +kernel,
    _, List.mem_singleton.mpr rfl, by decide +kernel, _, _, rfl, rfl, by decide +kernel⟩

/-- Slot 15 held: its image is software's. -/
def holds (saved : Bool) (c : Context) : State := { one 0 c with
  threads := [(0, running c), (15, { running user with slot := { (running user).slot with held := saved, saved := saved } })] }

theorem witness_held_slots : (∀ r : Fin 32, (((holds false supervisor).thread 0 15).img.x[r]).full = true) ∧
    (∀ r : Fin 16, (((holds false supervisor).thread 0 15).img.v[r]).full = true) ∧
    (∀ g : Fin 4, (((holds false supervisor).thread 0 15).img.gens[g]).append = false) ∧
    ((holds false supervisor).thread 0 15).slot.resident = true ∧ ((holds false supervisor).thread 0 15).slot.saved = false ∧
    ((holds true supervisor).thread 0 15).slot.saved = true ∧ ((holds true supervisor).thread 0 15).slot.held = true ∧
    ((holds true supervisor).thread 0 15).slot.wait ≠ .over ∧
    (one 0 supervisor).img.unbound 6#5 ∧ ((one 0 (having supervisor 6 (num 15))).img.word 6#5).toNat = 15 ∧
    imageFault (holds true supervisor) (imageAddr 0 15) = none ∧
    (imageFault { holds true supervisor with mem := [(imageAddr 0 15 + 0x658, 3#8)] } (imageAddr 0 15)).isSome = true ∧
    (let s : State := { one 0 supervisor with threads := [(0, running supervisor),
        (15, running { user with v := user.v.set 3 ⟨0#512, false⟩ })] }
     ((s.liveImg 0 15).v[3]).full = false ∧ (s.thread 0 15).slot.saved = false) :=
  ⟨by decide +kernel, by decide +kernel, by decide +kernel, by decide +kernel, by decide +kernel, by decide +kernel, by decide +kernel,
    by decide +kernel, (wr (by decide +kernel)).1, by decide +kernel, by decide +kernel, by decide +kernel, by decide +kernel⟩

/-- The curtain is up since cycle 0, some blocks having latched. -/
def snapping (cycle : Nat) (latched : List Nat) : State :=
  let s := flying 0 user (.reply (.x 9#5 8 false false) [] false)
  { s with cycle := cycle, service := { s.service with curtain := some ⟨0#64, 0, 0, 7, latched⟩ } }

theorem witness_curtain : (one 0 (at' 0x100 .firmware)).img.writable 9#5 ∧ (one 0 user).service.curtain = none ∧
    (snapping 65 [3]).service.curtain = some ⟨0#64, 0, 0, 7, [3]⟩ ∧ 10239 ∉ [3] ∧ (snapping 65 [3]).grade.hasBlock 10239 = true ∧
    (snapping 65 [3]).grade.hasBlock (16384 + 159 * 8 + 6) = true ∧ 0 + 64 < (snapping 65 [3]).cycle ∧ (snapping 64 [3]).cycle ≤ 0 + 64 ∧
    (snapping 64 []).reqs.length = 1 ∧ ((snapping 64 []).thread 0 0).slot.resident = true :=
  ⟨wr (by decide +kernel), by decide +kernel, by decide +kernel, by decide +kernel, by decide +kernel, by decide +kernel,
    by decide +kernel, by decide +kernel, by decide +kernel, by decide +kernel⟩

/-- Every block has latched: no block has a greater number. -/
theorem witness_curtain_falls : ∀ b, (snapping 64 (List.range 17664)).grade.hasBlock b = true → b ∈ List.range 17664 := by
  intro b h
  simp only [Grade.hasBlock] at h
  rw [List.mem_range]
  split at h
  · omega
  · simp only [Bool.and_eq_true, decide_eq_true_eq] at h
    omega

/-! ### Kernel launch -/

/-- x6 names a header, and x5 the argument block in core 0's ULM. -/
def launching (v : Nat) : Context := having (having user 6 (num v)) 5 (cap 0b100000#6 0x400 4096 0)

set_option maxRecDepth 8000 in
theorem witness_launch : (one 0 (launching 0x10000)).img.writable 31#5 ∧ (one 0 (launching 0x10000)).readable 6#5 ∧
    (one 0 (launching 0x10000)).readable 5#5 ∧ ((one 0 (launching (2 ^ 59))).img.word 6#5).extractLsb' 59 5 ≠ 0#5 ∧
    ((one 0 (launching (2 ^ 59 - 32))).img.word 6#5).extractLsb' 59 5 = 0#5 ∧
    accessCheck (cap 0b100000#6 0x400 4096 0) needL 0 4096 1 (one 0 user) = .ok (.local 0x400, one 0 user) ∧
    clear (one 0 (launching 0x10000)) .m 0x400 4096 ∧ ((one 0 user).part 0).store.find 127 = none :=
  ⟨wr (by decide +kernel), rd (by decide +kernel), rd (by decide +kernel), by decide +kernel, by decide +kernel, rfl,
    cl (by decide +kernel), by decide +kernel⟩

def launch (image : Option (List Byte × List Byte × List Byte)) : Launch := ⟨1, 0x10000, 0, [], none, 0, none, 0, 0#64, 0, image, none⟩

theorem witness_full_store : let s : State := { one 0 user with
      parts := [(0, { Partition.absent with stages := [0], store := (List.range 128).map fun i => (i, launch none) })] }
    ∀ i, i < 128 → ((s.part 0).store.find i).isSome = true := by decide +kernel

/-- A host's record, well formed, and one of a misaligned header. -/
def hostRecord (v : Nat) : List Byte := bytesOfNat 8 v ++ bytesOfNat 8 8 ++ bytesOfNat 8 (2 ^ 32 * 77 + 16) ++ bytesOfNat 8 64

theorem witness_host_record : natOfBytes ((hostRecord 0x10000).take 8) % 32 = 0 ∧ natOfBytes ((hostRecord 0x10001).take 8) % 32 ≠ 0 ∧
    natOfBytes (((hostRecord 0x10000).drop 16).take 8) / 2 ^ 13 % 2 ^ 19 = 0 ∧ (hostRecord 0x10000).length = 32 := by decide +kernel

/-- The code of a kernel, which is empty, so that its data area begins at 0 however it is aligned, and its header with a magic number
and a CRC: one core, one thread, a stack of 16 bytes. -/
def code : List Byte := []

def headerOf (magic crc : Nat) : List Byte :=
  bytesOfNat 4 magic ++ bytesOfNat 2 1 ++ bytesOfNat 2 1 ++ bytesOfNat 4 96 ++ bytesOfNat 4 0 ++ bytesOfNat 4 0 ++ [1#8, 0#8, 0#8, 0#8] ++
    [1#8, 1#8, 1#8, 0#8] ++ bytesOfNat 2 0 ++ bytesOfNat 2 0 ++ bytesOfNat 4 0 ++ bytesOfNat 4 0 ++ bytesOfNat 4 0 ++
    bytesOfNat 4 0 ++ bytesOfNat 4 0 ++ bytesOfNat 4 0 ++ bytesOfNat 4 0 ++ bytesOfNat 4 0 ++ bytesOfNat 4 16 ++ bytesOfNat 4 0 ++
    bytesOfNat 4 crc ++ List.replicate 20 0#8

def header : List Byte := headerOf 0x484B5242 0x27D42855

/-- Partition 0 with one entry in its store, and a header and code at 0x10000 of DRAM. -/
def stored (l : Launch) (h : List Byte) : State := { one 0 user with
  threads := [], dram := storeBytes [] 0x10000 (h ++ code)
  tlbs := [(16384, [(0, page 0x10000 6#3)])]
  parts := [(0, { Partition.absent with stages := [0], frames := [(0, 16)], store := [(127, l)] })] }

/-- What a read for a launch brings. -/
def bytesRead (x : Except State (List Byte × State)) : List Byte :=
  match x with
  | .ok (bs, _) => bs
  | .error _ => []

/-- The state after it. -/
def after' (x : Except State (List Byte × State)) : State :=
  match x with
  | .ok (_, u) => u
  | .error u => u

theorem witness_header_refused : bytesRead ((stored (launch none) (headerOf 1 0)).launchRead 0 127 (launch none) 0x10000 96) = headerOf 1 0 ∧
    brokenField 0x0C ((stored (launch none) (headerOf 1 0)).headerRules 0 (launch none) (headerOf 1 0)) = some 0 := by decide +kernel

/-- The data area of an object of which no greater alignment is known begins at a multiple of 64. -/
theorem witness_alignment : (stored (launch none) header).alignOf header = 64 ∧ dataEnd header ⟨[], [], 64⟩ = 0 ∧
    ({ stored (launch none) header with service := { Service.reset with aligns := [(0x27D42855, 15)] } } : State).alignOf header = 0x8000 := by
  decide +kernel

set_option maxRecDepth 8000 in
theorem witness_header : bytesRead ((stored (launch none) header).launchRead 0 127 (launch none) 0x10000 96) = header ∧
    bytesRead ((stored (launch none) header).launchRead 0 127 (launch none) (headerAt 0x10000 header 0x08) (codeSize header)) = code ∧
    imageSize header = 0 ∧ handlerCount header = 0 ∧ regionCount header + presetCount header = 0 := by decide +kernel

/-- The rules of the header of entry 127, once it is read. -/
def readRules : List (Nat × Bool) :=
  (after' ((stored (launch none) header).launchRead 0 127 (launch none) 0x10000 96)).headerRules 0 (launch none) header

set_option maxRecDepth 8000 in
theorem header_rules_hold : readRules.all (·.2) = true := by decide +kernel

/-- Where every rule holds, none is broken below any offset. -/
theorem brokenField_none (k : Nat) {l : List (Nat × Bool)} (h : l.all (·.2) = true) : brokenField k l = none := by
  unfold brokenField firstFail
  simp only [List.all_eq_true] at h
  rw [List.filter_eq_nil_iff.2]
  · rfl
  · simp only [List.mem_map, List.mem_filter]
    rintro _ ⟨e, ⟨he, -⟩, rfl⟩
    simp [h e he]

theorem witness_header_rules : brokenField 0x0C readRules = none ∧ brokenField 0x48 readRules = none ∧
    brokenField 0x60 readRules = none := ⟨brokenField_none _ header_rules_hold, brokenField_none _ header_rules_hold,
  brokenField_none _ header_rules_hold⟩

set_option maxRecDepth 8000 in
theorem table_rules_hold : (tableRules header ⟨[], [], 64⟩).all (·.2) = true := by decide +kernel

set_option maxRecDepth 8000 in
theorem crc_rule_holds : (crcRule header code []).2 = true := by decide +kernel

theorem witness_table_rules : brokenField 0x48 (tableRules header ⟨[], [], 64⟩) = none ∧
    brokenField 0x60 (crcRule header code [] :: tableRules header ⟨[], [], 64⟩) = none :=
  ⟨brokenField_none _ table_rules_hold, brokenField_none _ (by rw [List.all_cons, crc_rule_holds, table_rules_hold]; rfl)⟩

set_option maxRecDepth 8000 in
/-- A table rule, and the rule of the CRC, that do not hold. -/
theorem witness_header_late : brokenField 0x48 [(0x28, false)] = some 0x28 ∧
    brokenField 0x60 [crcRule (headerOf 0x484B5242 1) code []] = some 0x48 := by decide +kernel

theorem witness_placement : (stored (launch (some (header, code, []))) header).placement 0 header false = some [0] ∧
    code.length = codeSize header + imageSize header ∧ up64 (dataEnd header ⟨[], [], 64⟩) + 0 + 16 * stackSize header ≤ 0x38000 ∧
    (∀ q ∈ (stored (launch (some (header, code, []))) header).parts, q.1 = 0) ∧
    ((stored (launch (some (header, code, []))) header).part 0).state = 0#2 := by
  decide +kernel

def kernel (tag : Option (BitVec 32)) : Kernel := ⟨0, [0], 16, 0x1000, 64, 0, 128, 0, 0, [5], tag, 0x10000, 0, some 0, false, ⟨0, 0, false, []⟩⟩

/-- A core with a kernel, and nothing that runs. -/
def placed (b : Body) : State := { flying 0 user b with
  threads := [], kernels := [(9, kernel (some 77#32))], cores := [(0, { Core.reset with kernel := some 9 })] }

theorem witness_threads_start : (placed (.start 0 9 0)).kernels.find 9 = some (kernel (some 77#32)) ∧ (kernel none).threads = 16 ∧
    (placed (.start 0 9 0)).residents 0 = 0 ∧ (∀ n, n < 16 → (placed (.start 0 9 0)).slotHeld 0 n = false ∧
      ((placed (.start 0 9 0)).thread 0 n).slot.status = .free) ∧ 16 * (kernel none).stack ≤ 0x38000 := by decide +kernel

theorem witness_kernel_finished : ({ placed (.start 0 9 0) with reqs := [], cycle := 4096 } : State).retires 9 (kernel (some 77#32)) = true ∧
    ({ placed (.start 0 9 0) with reqs := [] } : State).retires 9 (kernel (some 77#32)) = false ∧
    (kernel (some 77#32)).mode = false ∧ (kernel (some 77#32)).completion ≠ 0 := by decide +kernel

theorem witness_completion : let s : State := { stored (launch none) header with reqs := [⟨7, 0, 16, 0, none, .system, [], .completion 0 0x10000 5#64 none⟩] }
    s.kernels.find 7 = none ∧ s.look (.copy 0) 0 0x10000 2#3 = .hit there ∧ (s.dramWrite unitTask there (bytesOfNat 8 5)).1 = .ok () := by decide +kernel

/-! ### Misses, faults, wakes, records -/

def missing (b : Body) (cycle : Nat) (w : Wait) : State := { one 0 user with
  reqs := [⟨7, 0, 16, 0, none, .system, [], b⟩], cycle := cycle
  threads := [(0, ⟨user, { (running user).slot with status := .blocked, wait := w }⟩)] }

theorem witness_timeouts : let s (w : Wait) := missing (.miss (.core 0) 0 1 0x10008 0) (2 ^ 26) w
    (2 ^ 26 - 1 : Nat) < 0 + 2 ^ 26 ∧ ((missing (.miss (.trav 0) 0 1 0x10008 0) (2 ^ 26) .retry).stage 0).rays = [] ∧
    0 + 2 ^ 26 ≤ (s (.miss 0x10008)).cycle ∧ ((s (.miss 0x10008)).core 0).queues.dq = [] ∧
    ((s (.miss 0x10008)).thread 0 0).slot.wait = .miss 0x10008 ∧ 0x10008 / 65536 = 1 ∧
    ((s (.miss 0x10008)).thread 0 0).pendingX 29#5 = false ∧
    (∀ j, j < 17 → j ≠ 0 → ((s (.miss 0x10008)).thread 0 j).slot.status ≠ .blocked) ∧
    ((s (.page 0x10008)).thread 0 0).slot.wait = .page 0x10008 := by decide +kernel

def faultRecord : CauseRecord := ⟨Cause.pageFault, 0#14, 0#2, 0#11, 0#64, 0x10008#64, 0#64⟩

/-- Router r holds an entry of the page, or 32 of others. -/
def routed (r n : Nat) (page : Nat) : State := { one 0 user with
  cores := [(r, { Core.reset with routes := List.replicate n ⟨0, page, 3#5, [.atomic 0 0]⟩ })]
  reqs := [⟨7, r, 16, 0, none, .system, [], .fault r 4 0 1 faultRecord (.atomic r 0)⟩] }

theorem witness_faults : (routed 130 1 1).rootOf 0 = 0 ∧ ((routed 130 1 1).core 130).routes = [⟨0, 1, 3#5, [.atomic 0 0]⟩] ∧
    (∀ e ∈ ((routed 130 1 2).core 130).routes, e.ctx ≠ 0 ∨ e.page ≠ 1) ∧ ((routed 130 1 2).core 130).routes.length < 32 ∧
    (∀ e ∈ ((routed 128 32 2).core 128).routes, e.ctx ≠ 0 ∨ e.page ≠ 1) ∧ ((routed 128 32 2).core 128).routes.length = 32 ∧
    (130 % 128 : Nat) > 0 % 128 ∧ (128 / 128 : Nat) > 0 / 128 ∧ ((routed 0 1 1).core ((routed 0 1 1).rootOf 0)).routes ≠ [] ∧
    (∀ e ∈ ((routed 0 1 1).core ((routed 0 1 1).rootOf 0)).routes, e.ctx = 0 ∧ e.page = 1) := by decide +kernel

/-- Partition 0 is rooted at core 10239, so that faults climb eastwards and southwards too. -/
theorem witness_far_root : let s : State := { one 0 user with
      parts := [(0, { Partition.absent with stages := [159] })], stages := [(159, { Stage.reset with translation := BitVec.ofNat 23 (2 ^ 15 + 2 ^ 14 + 10239) })] }
    s.rootOf 0 = 10239 ∧ (0 % 128 : Nat) < 10239 % 128 ∧ (127 : Nat) % 128 = 10239 % 128 ∧ (127 : Nat) / 128 < 10239 / 128 := by decide +kernel

theorem witness_wakes : let s := missing (.agentWake (.atomic 0 0) 0 1 true) 0 (.page 0x10008)
    s.contextOf 0 = 0 ∧ (s.core 0).queues.dq = [] ∧ (s.part 0).state.getLsbD 1 = false ∧
    (s.stage ((s.part 0).stages.headD 0)).halted ≠ 5 ∧ (s.thread 0 0).slot.status = .blocked ∧ (s.thread 0 0).slot.wait = .page 0x10008 ∧ (s.thread 0 0).slot.resident = true ∧
    (s.thread 0 0).pendingX 29#5 = false ∧ (s.thread 0 1).slot.status ≠ .blocked ∧
    ({ s with tlbs := [(0, [(0, page 0x10000 4#3)])] } : State).tlb (.core 0) = [(0, page 0x10000 4#3)] := by decide +kernel

/-- Queues of 2,048 records at 0x10000, whose producer and consumer stand as given. -/
def rings (producer consumer : Nat) : State := { stored (launch none) header with
  parts := [(0, { Partition.absent with
    stages := [0], frames := [(0, 16)], errBase := 0x10000#61, errPtr := ringPtr 0 consumer producer
    pgBase := 0x10000#61, pgPtr := ringPtr 0 consumer producer })] }

theorem witness_rings : ringFull ((rings 16 0).part 0).errBase ((rings 16 0).part 0).errPtr = true ∧
    ringFull ((rings 0 0).part 0).errBase ((rings 0 0).part 0).errPtr = false ∧
    (rings 0 0).look (.copy 0) 0 (ringSlot ((rings 0 0).part 0).errBase ((rings 0 0).part 0).errPtr) 2#3 = .hit there ∧
    ((rings 0 0).dramWrite unitTask there faultRecord.bytes).1 = .ok () := by decide +kernel

/-! ### Quiescence, pre-emption, restore, reset -/

/-- Partition 0 with nothing that runs, quiet for 4,096 cycles. -/
def silent (v : BitVec 2) : State := { one 0 user with
  threads := [], cycle := 4096
  parts := [(0, { Partition.absent with stages := [0], quietSince := some 0, state := v })] }

theorem witness_quiescence : (silent 0#2).detects 0 = true ∧ (silent 1#2).detects 0 = true ∧ (one 0 user).detects 0 = false := by decide +kernel

/-- The probe of mode 1 stands at a position. -/
def probing (place : Nat) (black : Bool) (c : Assoc Thread) : State := { one 0 user with
  threads := c, parts := [(0, { Partition.absent with stages := [0], mode := true, probe := ⟨place, 0, black, []⟩ })] }

theorem witness_probe : ((probing 0 false []).part 0).mode = true ∧ ((probing 0 false []).coreList 0).length = 64 ∧
    (probing 0 false []).interfaceIdle 0 (((probing 0 false []).coreList 0).getD 0 0) = true ∧
    (probing 0 false [(0, running user)]).interfaceIdle 0 (((probing 0 false []).coreList 0).getD 0 0) = false ∧
    (probing 64 true []).probeHolds 0 = false := by decide +kernel

/-- What a save area holds for stage 0, with the CRC of the part that is being read back. -/
def held (crc : BitVec 32) : Saved := ⟨4, Grade.full, [Stage.reset.decGen], [], [], crc⟩

/-- The save area stands in DRAM from 0x10000 on, and all but its last byte is done. The last byte is one of a part's CRC. -/
def saving (v : BitVec 2) (halted : Nat) (w : Option Saved) (b : Byte) : State := { silent v with
  dram := Assoc.put 0#8 [] 0x180FFFF b
  tlbs := [(16384, [(0, page 0x1800000 6#3)])]
  stages := [(0, { Stage.reset with translation := 0xC000#23, halted := halted })]
  service := { Service.reset with saved := match w with | some n => [(0, n)] | none => [] }
  parts := [(0, { Partition.absent with
    stages := [0], frames := [(0, 512)], quietSince := some 0, state := v, saveBase := 0x10000#57, saveDone := 0x17FFFFF })] }

def lastByte : DramAt := ⟨0, 0x180FFFF, 0, 0, 0x180FFFF, 1, 0, true, none, 65536⟩

theorem witness_preemption_steps : ((silent 0#2).part 0).state = 0#2 ∧ ((silent 0#2).part 0).stages ≠ [] ∧
    (∀ n, n < 6 → (saving 1#2 n none 0#8).haltStep 0 = n) ∧ ((saving 1#2 1 none 0#8).part 0).saveWait = none ∧
    (∀ c ∈ (saving 1#2 1 none 0#8).coreList 0, ((saving 1#2 1 none 0#8).core c).activation = none) ∧
    (saving 1#2 3 none 0#8).rastersDone 0 = true ∧ (saving 1#2 4 none 0#8).detects 0 = true ∧
    ({ saving 1#2 3 none 0#8 with dies := (drawing { raster [] 0 with drawing := some ⟨[], [], 0⟩ }).dies } : State).rastersDone 0 = false := by
  decide +kernel

theorem witness_save : ((saving 1#2 5 (some (held 0#32)) 0#8).part 0).state = 1#2 ∧
    (saving 1#2 5 (some (held 0#32)) 0#8).service.saved.find 0 = some (held 0#32) ∧
    (saving 1#2 5 (some (held 0#32)) 0#8).look (.copy 0) 0 ((((saving 1#2 5 (some (held 0#32)) 0#8).part 0).saveVa + 0x17FFFFF) % 2 ^ 57) 2#3 =
      .hit lastByte ∧
    min (min lastByte.run (0x1800000 - 0x17FFFFF % 0x1800000)) (lastByte.page - lastByte.phys % lastByte.page) = 1 ∧
    0x17FFFFF + 1 = ((saving 1#2 5 none 0#8).part 0).stages.length * 0x1800000 := by decide +kernel

/-- The page that the save would write may only be read, and the failure has been posted or not. -/
def failing (posted : Bool) : State :=
  let s := saving 1#2 5 (some (held 0#32)) 0#8
  { s with tlbs := [(16384, [(0, page 0x1800000 4#3)])], parts := s.parts.map fun e => (e.1, { e.2 with saveFailed := posted }) }

theorem witness_save_fails : (failing false).haltStep 0 = 5 ∧ ((failing false).part 0).saveWait = none ∧
    (failing false).look (.copy 0) 0 ((((failing false).part 0).saveVa + 0x17FFFFF) % 2 ^ 57) 2#3 = .cause Cause.protection ∧
    ((failing false).part 0).saveFailed = false ∧ ((failing true).part 0).saveFailed = true ∧ Cause.protection ≠ Cause.pageFault := by
  decide +kernel

theorem witness_save_write (b : Byte) : ∃ u, (saving 1#2 5 (some (held 0#32)) 0#8).dramWrite unitTask lastByte [b] = (.ok (), u) := ⟨_, rfl⟩

theorem witness_restore : (held 0#32).grade = (saving 2#2 5 none 0#8).grade ∧
    (held 0#32).gens = ((saving 2#2 5 none 0#8).part 0).stages.map (fun st => ((saving 2#2 5 none 0#8).stage st).decGen) ∧
    (held 0#32).gens ≠ [Stage.reset.decGen + 1#16] ∧
    ((saving 3#2 5 (some (held 0xFFFFFFFF#32)) 0#8).dramRead false lastByte 1).1 = .ok [0#8] ∧
    checkBytes 0xFFFFFFFF#32 0x17FFFFF [0#8] = .ok 0xFFFFFFFF#32 ∧
    ((saving 3#2 5 (some (held 0xFFFFFFFF#32)) 1#8).dramRead false lastByte 1).1 = .ok [1#8] ∧
    checkBytes 0xFFFFFFFF#32 0x17FFFFF [1#8] = .error 0x17FFFFF := by decide +kernel

theorem witness_partition_reset : (∀ st ∈ ((silent 0#2).part 0).stages, ((silent 0#2).stage st).rays = []) ∧
    ((missing (.miss (.core 0) 0 1 0x10008 0) 0 (.page 0x10008)).thread 0 0).slot.status = .blocked := by decide +kernel

/-! ### Writes from outside, controllers, links, starts -/

theorem witness_register_writes : ((one 0 user).thread 0 0).slot.resident = true ∧ ((10239 : Nat) < 10240) ∧
    (one 0 user).grade.noStage.contains (stageOf 10239) = false ∧ (one 0 user).grade.noStage.contains (3 * 40 + 4 * 8 + 7) = false := by
  decide +kernel

theorem witness_bank_writes : bankFree { one 0 user with cur := (0, 0) } 6 15#4 ∧
    ¬ bankFree { tiled user readyTile [] with cur := (0, 0) } 0 15#4 := by
  unfold bankFree meets
  decide +kernel

/-- A unit's update is under way. -/
def updating (u : FirmwareUnit) (image : Option Image) (swapping : Bool) : State := { one 0 user with
  service := { Service.reset with update := some ⟨⟨u, image⟩, swapping, 32#8⟩ } }

theorem witness_dram : (4 : Nat) ≤ 4 ∧ (one 0 user).flips = [] ∧ (0x1FF : Nat) % 2 ^ (5 + 4) + 1 ≤ 2 ^ (5 + 4) ∧
    ({ one 0 user with flips := [0x101 * 8 + 3] } : State).flips = [0x101 * 8 + 3] ∧ (0x101 * 8 + 3) / 8 / 32 = 0x100 / 32 ∧
    (one 0 user).foreign ((one 0 user).controllerPlace 0x100 0 0) = false ∧
    (one 0 user).calibrating ((one 0 user).controllerPlace 0x100 0 0) = false ∧
    (let s : State := { one 0 user with layouts := [(8, 3)] }; s.foreign (s.controllerPlace 0x100 0 0) = true) ∧
    (let s := updating (.calibration 8 0) none false; s.calibrating (s.controllerPlace 0x100 0 0) = true) := by decide +kernel

theorem witness_refresh : (16 : Nat) ≤ ((one 0 user).stack 11).level.toNat ∧ (1 : Nat) ≤ 80 ∧ ((one 0 user).stack 11).level.toNat < 81 := by
  decide +kernel

theorem witness_links : ((one 0 user).link 16).state = 2#2 ∧ ((one 0 user).link 15).state = 2#2 ∧
    (({ one 0 user with links := [(15, { Link.peer with state := 1#2 })] } : State).link 15).state = 1#2 := by decide +kernel

/-- A peer's request at port 15, which holds frames 2 to 5. -/
def peered (q : PeerReq) : State := { one 0 user with
  service := { Service.reset with peers := [(15, [q])], grants := [(15, [(2, 4)])] } }

theorem witness_peer : Assoc.get [] (peered (.read 0x20010 16)).service.peers 15 = [.read 0x20010 16] ∧
    (∃ f ∈ Assoc.get [] (peered (.read 0x20010 16)).service.grants 15, f.1 ≤ 0x20010 / 65536 ∧ 0x20010 / 65536 < f.1 + f.2) ∧
    (∃ f ∈ Assoc.get [] (peered (.write 0x5FFE0 (List.replicate 32 1#8))).service.grants 15, f.1 ≤ 0x5FFE0 / 65536 ∧ 0x5FFE0 / 65536 < f.1 + f.2) ∧
    (∀ f ∈ Assoc.get [] (peered (.read 0x60000 16)).service.grants 15, f.1 + f.2 ≤ 0x60000 / 65536) ∧
    (∀ a, (peered (.read 0x60000 16)).foreign ((peered (.read 0x60000 16)).peerPlace a) = false) ∧
    (peered (.read 0x60000 16)).service.update = none ∧ (let s := updating (.calibration 4 21) none false; s.calibrating (s.peerPlace 0x20010) = true) ∧ (peered (.read 0x60000 16)).aliases = [] ∧
    (adding .cas 8 1 0 none).write (bytesOfNat 8 1) = none ∧ (adding .add 8 1 0 none).write (bytesOfNat 8 1) = some (bytesOfNat 8 2) :=
  ⟨by decide +kernel, by decide +kernel, by decide +kernel, by decide +kernel, fun _ => by simp [State.foreign, peered, one, State.reset, Assoc.get], by decide +kernel,
    by decide +kernel, by decide +kernel, by decide +kernel, by decide +kernel⟩

/-- Kept settings, a calibration with its CRC, and no image to verify. -/
def kept : Boot := { Boot.reset with selfRefresh := true, calibration := some ([1#8], crc32c [1#8]), settings := true }

theorem witness_start : kept.selfRefresh = true ∧ (∃ bs, kept.calibration = some (bs, crc32c bs)) ∧ kept.settings = true ∧
    (∀ i ∈ kept.images, slhVerify slh128s vendorKey i.bytes i.signature = true) :=
  ⟨rfl, ⟨_, rfl⟩, rfl, fun _ h => nomatch h⟩

/-- An image; whether it verifies is left open with the vendor's key, so the witness takes either case. -/
def image (gen : BitVec 16) : Image := ⟨0, [1#8], List.replicate 7856 2#8, [], false, gen, []⟩

theorem witness_images : (image 3#16).signature.length = 7856 ∧
    ((∀ i ∈ [image 3#16], slhVerify slh128s vendorKey i.bytes i.signature = true) ∨
      ∃ i ∈ [image 3#16], ¬ slhVerify slh128s vendorKey i.bytes i.signature = true) := by
  refine ⟨List.length_replicate .., ?_⟩
  by_cases h : ∀ i ∈ [image 3#16], slhVerify slh128s vendorKey i.bytes i.signature = true
  · exact .inl h
  · exact .inr (by simpa using h)

theorem witness_live_updates : (one 0 user).service.update = none ∧ (159 : Nat) < 160 ∧ (one 0 user).grade.noStage.contains 159 = false ∧
    3 ∈ (one 0 user).grade.groups.getD 11 [] ∧ 63 / 16 ∈ (one 0 user).grade.groups.getD 11 [] ∧ ((one 0 user).link 16).state = 2#2 ∧
    (∀ port ∈ [3, 16], let full := (one 0 user).grade.lanes port
      let n := if full / 2 < ((one 0 user).link port).lanes.toNat then full / 2 else full / 4
      ((one 0 user).link port).lanes.toNat ≤ full ∧ n < ((one 0 user).link port).lanes.toNat ∧ (if port = 16 then 8 else 2) ≤ n ∧ n < 256) ∧
    (updating (.decode 0) (some (image 3#16)) false).pick 0 = none ∧ ((silent 0#2).part 0).stages ≠ [] ∧
    (∀ k ∈ [(9, kernel none)], k.2.minGen ≤ (image 3#16).decGen.toNat) ∧ (∃ c ∈ (kernel none).cores, stageOf c = 0) ∧
    (image 3#16).decGen.toNat < ({ kernel none with minGen := 4 } : Kernel).minGen := by decide +kernel

/-- An image that has been measured before. -/
theorem witness_stored_image : let b : Boot := { Boot.reset with images := [image 0#16], stored := [(0, sha256 [1#8])] }
    ∀ i ∈ b.images, (i.name, sha256 i.bytes) ∈ b.stored := by
  intro b i h
  rw [List.mem_singleton.mp h]
  exact List.mem_singleton.mpr rfl

theorem witness_telemetry : ((one 0 user).die 3).telAt + 250000 ≤ ({ one 0 user with cycle := 825000 } : State).time.toNat ∧
    ({ one 0 user with cycle := 824999 } : State).time.toNat < ((one 0 user).die 3).telAt + 250000 ∧
    (image 0#16).installed = false ∧ (image 0#16).decGen = 0#16 ∧ (image 3#16).decGen ≠ 0#16 := by decide +kernel

/-! ### The machine as a whole -/

/-- Core 0 is to issue the `add` that stands at 0x100, and nothing follows it. -/
def issuing : State := { one 0 user with
  mem := storeBytes [] 0x100 (bytesOfNat 4 0x004D5A83), agenda := [⟨.issue 0, 1, false, none, []⟩] }

theorem witness_step : let s : State := { issuing with agenda := [] }
    let u := s.tick (s.passing 1)
    (u.partOf 0).isSome = true ∧ u.pick 0 = some 0 ∧ (u.core 0).fetch = none ∧ (u.thread 0 0).deferredDue = false ∧
    (u.thread 0 0).slot.soft = none ∧ u.budgetDue 0 = false ∧
    (u.stage (stageOf 0)).decExt = [] ∧ (u.thread 0 0).img.pc.toNat % 2 = 0 ∧ (u.thread 0 0).img.pc.toNat / 4 * 4 + 8 ≤ 0x38000 ∧
    (match decodeAt (wordOfBytes (u.readBytes (ulmAddr 0 0x100) 8)) (wordOfBytes ((u.readBytes (ulmAddr 0 0x100) 8).drop 4)) false with
      | .ok (i, n) => i == .add 21#5 ⟨21#5, false⟩ ⟨19#5, false⟩ && n == 4
      | .error _ => false) = true := by decide +kernel

/-- The same word in a fetch buffer. -/
theorem witness_step_buffered : let u := ({ issuing with cores := [(0, { Core.reset with
      fetch := some (0x100, bytesOfNat 4 0x004D5A83 ++ List.replicate 28 0#8) })] } : State)
    ∃ base bs, (u.core 0).fetch = some (base, bs) ∧ base ≤ 0x100 ∧ 0x100 + 8 ≤ base + bs.length ∧
      ((bs.drop (0x100 - base)).take 8).length = 8 := ⟨_, _, rfl, by decide +kernel, by decide +kernel, by decide +kernel⟩

/-- A window wrote x5. -/
def windowed : Context := { user with windowed := 32#48 }

theorem witness_window_reads : windowed.isWindowed 5 = true ∧ (one 0 windowed).img.unbound 5#5 ∧ (one 0 windowed).fenceWaits .r = [] ∧
    ({ writing with threads := [(0, ⟨windowed, { (running windowed).slot with fences := [⟨[7], 1#5⟩] }⟩)] } : State).fenceWaits .r ≠ [] :=
  ⟨by decide +kernel, (wr (by decide +kernel)).1, by decide +kernel, by decide +kernel⟩

theorem witness_encoding : (Instr.ldiL 31#5 (-1#40)).wellFormed = true ∧ (encode (.ldiL 31#5 (-1#40))).isSome = true ∧
    (Instr.cBnez 7#3 0xFF#8).wellFormed = true ∧ (encode (.cBnez 7#3 0xFF#8)).isSome = true := by decide +kernel

theorem witness_memory_form : issuing.memoryOk := ⟨by decide +kernel, by decide +kernel⟩

theorem witness_step_goes_on : ∃ t, step issuing = .next t := ⟨_, rfl⟩

theorem witness_over_arrival : (grouped (.groupAnswer 9#16 .over 0#5)).req 7 ≠ none ∧
    ((grouped (.groupAnswer 9#16 .over 0#5)).thread 0 0).img.trap.stat.getLsbD 5 = false := by decide +kernel

/-! ## Decoding: words written out from the encodings of the spec (08 R128 to R138, and each family's table) -/

theorem test_decode_add : decodeTableWord 32 0x004D5A83 = some (.add 21#5 ⟨21#5, false⟩ ⟨19#5, false⟩) := by decide +kernel

theorem test_decode_csetb : decodeTableWord 32 0x00349493 = some (.csetb 9#5 ⟨9#5, false⟩ ⟨13#5, false⟩) := by decide +kernel

theorem test_decode_jr : decodeTableWord 32 0x0000101F = some (.jr ⟨1#5, false⟩) := by decide +kernel

theorem test_decode_done : decodeTableWord 32 0x0200001F = some (.done) := by decide +kernel

theorem test_decode_yield : decodeTableWord 32 0x0300001F = some (.yield) := by decide +kernel

theorem test_decode_nop : decodeTableWord 32 0x0500001F = some (.nop) := by decide +kernel

theorem test_decode_tdecl : decodeTableWord 32 0x0028925B = some (.tdecl 4#4 ⟨9#5, false⟩ false 5#6) := by decide +kernel

theorem test_decode_tsub : decodeTableWord 32 0x8001005F = some (.tsub ⟨16#5, false⟩) := by decide +kernel

theorem test_decode_tqry : decodeTableWord 32 0x8100D4DF = some (.tqry 9#5 ⟨13#5, false⟩) := by decide +kernel

theorem test_decode_xcopy : decodeTableWord 32 0x8200B05F = some (.xcopy ⟨11#5, false⟩) := by decide +kernel

theorem test_decode_skbc : decodeTableWord 32 0x8308C05F = some (.skbc ⟨12#5, false⟩ 2#4 false) := by decide +kernel

theorem test_decode_sbpld : decodeTableWord 32 0x8828905F = some (.sbpld ⟨9#5, false⟩ ⟨10#5, false⟩) := by decide +kernel

theorem test_decode_sbprd : decodeTableWord 32 0x8900C5DF = some (.sbprd 11#5 ⟨12#5, false⟩) := by decide +kernel

theorem test_decode_raynew : decodeTableWord 32 0x0000A4E3 = some (.raynew 9#5 ⟨10#5, false⟩) := by decide +kernel

theorem test_decode_spins : decodeTableWord 32 0x03309063 = some (.spins ⟨9#5, false⟩ ⟨12#5, false⟩) := by decide +kernel

theorem test_decode_vbmin : decodeTableWord 32 0x0024A467 = some (.vbmin 8#5 ⟨10#5, false⟩ ⟨9#5, false⟩) := by decide +kernel

theorem test_decode_wgfin : decodeTableWord 32 0x0200B067 = some (.wgfin ⟨11#5, false⟩) := by decide +kernel

theorem test_decode_wgemit : decodeTableWord 32 0x0130B067 = some (.wgemit ⟨11#5, false⟩ ⟨12#5, false⟩) := by decide +kernel

theorem test_decode_csrr : decodeTableWord 32 0x0008056B = some (.csrr 10#5 2#11) := by decide +kernel

theorem test_decode_csrw : decodeTableWord 32 0x2000906B = some (.csrw ⟨9#5, false⟩ 0#11) := by decide +kernel

theorem test_decode_csrx : decodeTableWord 32 0x4084A4EB = some (.csrx 9#5 ⟨10#5, false⟩ 33#11) := by decide +kernel

theorem test_decode_hcall : decodeTableWord 32 0x6014006B = some (.hcall 5#11) := by decide +kernel

theorem test_decode_eret : decodeTableWord 32 0x8000006B = some (.eret) := by decide +kernel

theorem test_decode_wfi : decodeTableWord 32 0x8100006B = some (.wfi) := by decide +kernel

theorem test_decode_tlbw : decodeTableWord 32 0x822CA06B = some (.tlbw ⟨10#5, false⟩ ⟨11#5, false⟩) := by decide +kernel

theorem test_decode_tlbi : decodeTableWord 32 0x8300A06B = some (.tlbi ⟨10#5, false⟩) := by decide +kernel

theorem test_decode_tlbp : decodeTableWord 32 0x8400A4EB = some (.tlbp 9#5 ⟨10#5, false⟩) := by decide +kernel

theorem test_decode_ctxsv : decodeTableWord 32 0x8500A06B = some (.ctxsv ⟨10#5, false⟩) := by decide +kernel

theorem test_decode_ctxld : decodeTableWord 32 0x8600A06B = some (.ctxld ⟨10#5, false⟩) := by decide +kernel

theorem test_decode_snap : decodeTableWord 32 0x870004EB = some (.snap 9#5) := by decide +kernel

theorem test_decode_shli : decodeTableWord 32 0x0809398B = some (.shli 19#5 ⟨19#5, false⟩ 2#6) := by decide +kernel

theorem test_decode_sw : decodeTableWord 32 0x00289127 = some (.sw ⟨9#5, false⟩ ⟨10#5, false⟩ 0#8) := by decide +kernel

theorem test_decode_dpull : decodeTableWord 32 0x013554AF = some (.dpull 9#5 1#6 ⟨21#5, false⟩ ⟨13#5, false⟩) := by decide +kernel

theorem test_decode_cset : decodeTableWord 32 0xD008002F = some (.cset 1#6 0#11) := by decide +kernel

theorem test_decode_cwait : decodeTableWord 32 0xC00800AF = some (.cwait 1#6 1#11) := by decide +kernel

theorem test_decode_aadd : decodeTableWord 32 0x00594437 = some (.aadd 8#5 ⟨20#5, false⟩ ⟨22#5, false⟩ false) := by decide +kernel

theorem test_decode_radd_tz : decodeTableWord 32 0xC9594037 = some (.raddTz ⟨20#5, false⟩ ⟨22#5, false⟩ 9#6) := by decide +kernel

theorem test_decode_fence : decodeTableWord 32 0x040C3033 = some (.fenceY 3#5 3#5) := by decide +kernel

theorem test_decode_send : decodeTableWord 32 0x000507BB = some (.send 15#5 ⟨16#5, false⟩ 1#8) := by decide +kernel

theorem test_decode_lea : decodeTableWord 32 0x4001F4AB = some (.lea 9#5 ⟨31#5, false⟩ 0#2 0#10) := by decide +kernel

theorem test_decode_lea_scaled : decodeTableWord 32 0x6405F4AB = some (.lea 9#5 ⟨31#5, false⟩ 2#2 257#10) := by decide +kernel

theorem test_decode_sbind : decodeTableWord 32 0x0108CC2B = some (.sbind 24#5 0#2 ⟨12#5, false⟩ 2#2) := by decide +kernel

theorem test_decode_ld : decodeTableWord 32 0x000C4AA3 = some (.ld 21#5 ⟨4#5, false⟩ 0#11) := by decide +kernel

theorem test_decode_lwu : decodeTableWord 32 0x00584B23 = some (.lwu 22#5 ⟨4#5, false⟩ 2#11) := by decide +kernel

theorem test_decode_loopi : decodeTableWord 32 0x8008021F = some (.loopi 2#13 4#11) := by decide +kernel

theorem test_decode_trap : decodeTableWord 32 0x4014001F = some (.trap 5#11) := by decide +kernel

theorem test_decode_waitf : decodeTableWord 32 0x0600049F = some (.waitf 9#5) := by decide +kernel

theorem test_decode_fadd : decodeTableWord 32 0x102CA4C3 = some (.fadd 9#5 ⟨10#5, false⟩ ⟨11#5, false⟩ 2#2 0#3) := by decide +kernel

theorem test_decode_vand : decodeTableWord 32 0x8802454B = some (.vand 2#4 2#4 1#4 true 0#3 2#2) := by decide +kernel

theorem test_decode_tgive : decodeTableWord 32 0x0818005B = some (.tgive ⟨0#5, false⟩ false 3#6) := by decide +kernel

theorem test_decode_twait : decodeTableWord 32 0x1020005B = some (.twait false 4#6) := by decide +kernel

theorem test_decode_ldi_l : decodeTableWord 64 0x1234567B027C487F = some (.ldiL 9#5 0x1234567890#40) := by decide +kernel

theorem test_decode_c_addi : decodeTableWord 16 0x0000FF28 = some (.cAddi 1#3 0xFF#8) := by decide +kernel

theorem test_decode_c_nop : decodeTableWord 16 0x00000018 = some (.cNop) := by decide +kernel

theorem test_decode_upper_half : (decodeAt 0xFF32FF28#32 0#32 true).toOption = some (.cBnez 1#3 0xFF#8, 2) := by decide +kernel

theorem test_decode_upper_half_of_a_word : (decodeAt 0x0500001F#32 0#32 true).toOption = none := by decide +kernel

theorem test_decode_no_row : decodeTableWord 32 0 = none := by decide +kernel

/-! ## Well-formedness: for each check a term it refuses, and a neighbour it takes -/

theorem test_malformed_field : (Instr.cget 5#5 16#11 x5).malformed = some .field := by decide +kernel

theorem test_malformed_rounding : (Instr.fadd 5#5 x5 x6 2#2 4#3).malformed = some .rounding := by decide +kernel

theorem test_malformed_condition : (Instr.bL 2#3 x5 x6 0#30).malformed = some .condition := by decide +kernel

theorem test_malformed_streamRegister : (Instr.sunbind 28#5).malformed = some .streamRegister := by decide +kernel

theorem test_malformed_baseIsDestination : (Instr.lbPostinc 5#5 x5 0#8).malformed = some .baseIsDestination := by decide +kernel

theorem test_malformed_maskRegister : (Instr.mgen 8#4 x5).malformed = some .maskRegister := by decide +kernel

theorem test_malformed_lane : (Instr.vmovx 5#5 8#4 2#4 false 3#2).malformed = some .lane := by decide +kernel

theorem test_malformed_source : (Instr.fcvt 5#5 x5 0#3 5#3 0#3).malformed = some .source := by decide +kernel

theorem test_malformed_csr : (Instr.csrr 5#5 0x7FF#11).malformed = some .csr := by decide +kernel

theorem test_malformed_noCore : (Instr.streamFetch 10240 0 0).malformed = some .noCore := by decide +kernel

theorem test_malformed_noContext : (Instr.streamFetch 0 17 0).malformed = some .noContext := by decide +kernel

theorem test_malformed_noGenerator : (Instr.streamFetch 0 16 4).malformed = some .noGenerator := by decide +kernel

theorem test_malformed_noStage : (Instr.taskStart 160 0).malformed = some .noStage := by decide +kernel

theorem test_malformed_noEngine : (Instr.taskStart 159 4).malformed = some .noEngine := by decide +kernel

theorem test_malformed_noStream : (Instr.segmentPlay 159 256).malformed = some .noStream := by decide +kernel

theorem test_malformed_noCommand : (Instr.copyCommandComplete 159 64).malformed = some .noCommand := by decide +kernel

theorem test_malformed_noDestination : (Instr.copyDestinationFill 159 63 8).malformed = some .noDestination := by decide +kernel

theorem test_malformed_noRay : (Instr.walkerStep 159 1024).malformed = some .noRay := by decide +kernel

theorem test_malformed_noDie : (Instr.rampEnd 4).malformed = some .noDie := by decide +kernel

theorem test_malformed_noRaster : (Instr.rasterRecord 3 4 0).malformed = some .noRaster := by decide +kernel

theorem test_malformed_noQueue : (Instr.rasterRecord 3 3 64).malformed = some .noQueue := by decide +kernel

theorem test_malformed_noPartition : (Instr.partitionReset 256).malformed = some .noPartition := by decide +kernel

theorem test_malformed_noEntry : (Instr.dqEntryComplete 0 16).malformed = some .noEntry := by decide +kernel

theorem test_malformed_noStack : (Instr.periodicRefresh 12 0).malformed = some .noStack := by decide +kernel

theorem test_malformed_noPort : (Instr.flitReplay 17).malformed = some .noPort := by decide +kernel

theorem test_malformed_noBlock : (Instr.curtainTimeout 1000000).malformed = some .noBlock := by decide +kernel

theorem test_wellFormed_rounding : (Instr.fadd 5#5 x5 x6 2#2 7#3).wellFormed = true := by decide +kernel

theorem test_wellFormed_streamRegister : (Instr.sunbind 27#5).wellFormed = true := by decide +kernel

theorem test_wellFormed_noCore : (Instr.streamFetch 10239 16 3).wellFormed = true := by decide +kernel

theorem test_wellFormed_noStage : (Instr.taskStart 159 3).wellFormed = true := by decide +kernel

theorem test_wellFormed_lane : (Instr.vmovx 5#5 7#4 2#4 false 3#2).wellFormed = true := by decide +kernel

theorem test_wellFormed_noPort : (Instr.flitReplay 16).wellFormed = true := by decide +kernel

/-! ## One step of single instructions, each against the spec's own words -/

/-- The state after an instruction. -/
noncomputable def result (i : Instr) (s : State) : State :=
  match exec i s with
  | .next t => t
  | _ => s

/-- x5 and x6 numbers, in user mode at 0x100. -/
def with2 (a b : Nat) : State := { one 0 (having (having user 5 (num a)) 6 (num b)) with mem := [(0x100, 1#8)] }

def y6 : Src := ⟨6#5, false⟩

/-- A register's low 64 bits and tag after an instruction. -/
noncomputable def got (i : Instr) (s : State) (r : Fin 32) : Nat × Bool :=
  (((result i s).img.x[r]).val.toNat, ((result i s).img.x[r]).tag)

-- 09 R142: sums wrap at 64 bits; the result's upper half is zero.
theorem test_add_wraps : got (.add 5#5 x5 y6) (with2 (2 ^ 64 - 1) 2) 5 = (1, false) := by decide +kernel

-- 09 R144: the immediate is sign-extended.
theorem test_addi_negative : got (.addi 9#5 x5 (-1#11)) (with2 0 0) 9 = (2 ^ 64 - 1, false) := by decide +kernel

-- 09 R143: `slt` compares signed, `sltu` unsigned.
theorem test_slt_signed : got (.slt 9#5 x5 y6) (with2 (2 ^ 64 - 1) 0) 9 = (1, false) := by decide +kernel

theorem test_sltu_unsigned : got (.sltu 9#5 x5 y6) (with2 (2 ^ 64 - 1) 0) 9 = (0, false) := by decide +kernel

-- 09 R146: the shift count is s2[5:0].
theorem test_shl_count : got (.shl 9#5 x5 y6) (with2 3 65) 9 = (6, false) := by decide +kernel

-- 09 R147: `fshr` takes d above below s1.
theorem test_fshl : got (.fshl 9#5 x5 y6) (one 0 (having (having (having user 9 (num 1)) 5 (num (2 ^ 63))) 6 (num 1))) 9 = (3, false) := by
  decide +kernel

-- 09 R148: the field of length 4 at position 8.
theorem test_bext : got (.bext 9#5 x5 y6) (with2 0xABCD (8 + 4 * 256)) 9 = (0xB, false) := by decide +kernel

-- 04 R44: x0 reads as zero and discards writes.
theorem test_x0_discards : got (.add 0#5 x5 y6) (with2 1 2) 0 = (0, false) := by decide +kernel

-- 10 R177: `lb` sign-extends, `lbu` does not.
theorem test_lb_signed : got (.lb 9#5 x5 0#11)
    { one 0 (having user 5 (cap 0b100000#6 0x400 1 0)) with mem := [(0x400, 0x80#8)] } 9 = (2 ^ 64 - 128, false) := by decide +kernel

theorem test_lbu_unsigned : got (.lbu 9#5 x5 0#11)
    { one 0 (having user 5 (cap 0b100000#6 0x400 1 0)) with mem := [(0x400, 0x80#8)] } 9 = (128, false) := by decide +kernel

-- 00 R3: bytes stand little-endian, and an offset counts in units of the access.
theorem test_sw_bytes : (result (.sw x5 y6 1#8) (one 0 (having (having user 5 (cap 0b010000#6 0x400 8 0)) 6 (num 0x01020304)))).mem =
    [(0x404, 4#8), (0x405, 3#8), (0x406, 2#8), (0x407, 1#8)] := by decide +kernel

-- 10 R180: the cursor steps after the access.
theorem test_postinc_steps : (Quad.offset ((result (.ldPostinc 9#5 x5 1#8) (one 0 (having user 5 (cap 0b100000#6 0x400 16 0)))).img.x[5]).val) = 8#32 := by
  decide +kernel

-- 10 R181, 24 R345: an access past the capability's end traps "capability bounds" (cause 0x14) and reads nothing.
theorem test_load_past_end : (result (.ld 9#5 x5 1#11) (one 0 (having user 5 (cap 0b100000#6 0x400 15 0)))).img.trap.cause = 0x14#7 := by
  decide +kernel

-- 09 R161: a taken branch counts halfwords from its own pc.
theorem test_branch_taken : (result (.beq x5 y6 (-2#10)) (with2 4 4)).img.pc = 0xFC#18 := by decide +kernel

theorem test_branch_not_taken : (result (.beq x5 y6 (-2#10)) (with2 4 5)).img.pc = 0x104#18 := by decide +kernel

-- 09 R162: `jal` links to pc + 4, and its offset counts halfwords.
theorem test_jal_links : got (.jal 1#5 4#20) (one 0 user) 1 = (0x104, false) ∧ (result (.jal 1#5 4#20) (one 0 user)).img.pc = 0x108#18 := by
  decide +kernel

-- 03 R42: at the end of a loop with passes left the pc goes back to its start.
theorem test_loop_back : (result (.addi 9#5 x5 1#11) { one 0 (looping 2) with mem := [(0x100, 1#8)] }).img.pc = 0xE0#18 := by decide +kernel

theorem test_loop_ends : (result (.addi 9#5 x5 1#11) { one 0 (looping 1) with mem := [(0x100, 1#8)] }).img.pc = 0x104#18 := by decide +kernel

-- 23 R331: `hcall` takes the trap "supervisor call" in supervisor mode at the vector of class 0, with next set.
theorem test_hcall : (result (.hcall 5#11) (one 0 user)).img.mode = .supervisor ∧
    (result (.hcall 5#11) (one 0 user)).img.trap.addr = 5#64 ∧ (result (.hcall 5#11) (one 0 user)).img.trap.stat = 0x60#8 := by
  decide +kernel

-- 23 R328: user mode may not return.
theorem test_eret_user : (result .eret (one 0 user)).img.trap.cause = 0x07#7 := by decide +kernel

-- 10 R191: a counter wraps at 32 bits.
theorem test_cadd_wraps : ((((result (.cadd 3#6 2#11) { one 0 user with
    cores := [(0, { Core.reset with counters := [(3, ⟨0#8, 0xFFFFFFFF#32⟩)] })] }).core 0).counter 3).value) = 1#32 := by decide +kernel

-- 05 R62, R66, 11 R211: 1.0 + 2^-24 in FP32 rounds to even, and is inexact.
theorem test_fadd_rounds : (let t := result (.fadd 9#5 x5 y6 2#2 0#3) (with2 0x3F800000 0x33800000)
    (((t.img.x[9]).val.toNat, t.img.fpFlags) : Nat × BitVec 5)) = (0x3F800000, 1#5) := by decide +kernel

-- 05 R68: a number over zero is infinite, and raises DZ.
theorem test_fdiv_by_zero : (let t := result (.fdiv 9#5 x5 y6 2#2 0#3) (with2 0xBF800000 0)
    (((t.img.x[9]).val.toNat, t.img.fpFlags) : Nat × BitVec 5)) = (0xFF800000, 8#5) := by decide +kernel

-- 11 R219: elements do not carry into one another.
theorem test_vadd_lanes : (((result (.vadd 1#4 2#4 3#4 false 0#3 0#2) (one 0 { user with
    v := (user.v.set 2 ⟨0x01FF#512, true⟩).set 3 ⟨0x0101#512, true⟩ })).img.v[1]).val) = 0x0200#512 := by decide +kernel

-- 09 R159: `cclr` keeps the bits and clears the tag.
theorem test_cclr : got (.cclr 9#5 x5) (one 0 (having user 5 (cap 0b110000#6 0x400 64 0))) 9 =
    ((cap 0b110000#6 0x400 64 0).val.toNat, false) := by decide +kernel

end Sys2Proof.Tests
end

/-!
The shift and bit-field values of 09 R147 and R148 as arithmetic on naturals, the two words of `ldi.l` (09 R145), and the statements on
them.
-/

namespace Sys2Proof

/-! ## The words of a long constant -/

theorem toNat_append_eq_add {m n : Nat} (x : BitVec m) (y : BitVec n) : (x ++ y).toNat = x.toNat * 2 ^ n + y.toNat := by
  rw [BitVec.toNat_append, ← Nat.shiftLeft_add_eq_or_of_lt y.isLt, Nat.shiftLeft_eq]

theorem ext_eq_extractLsb' (lo n : Nat) {m : Nat} (w : BitVec m) : ext lo n w = w.extractLsb' lo n := rfl

/-- The first word of `ldi.l`, its fields written side by side. -/
theorem pack_ldiL_first (d : XName) (low : BitVec 15) :
    pack (n := 5 + 5 + 15 + 7) [bits 0#5, bits d, bits low, bits 127#7] = 0#5 ++ d ++ low ++ 127#7 := by
  apply BitVec.eq_of_toNat_eq
  simp only [toNat_append_eq_add]
  simp [pack, packNat, bits, Nat.shiftLeft_eq]
  omega

/-- The second word of `ldi.l`, its fields written side by side. -/
theorem pack_ldiL_second (high : BitVec 25) : pack (n := 25 + 7) [bits high, bits 123#7] = high ++ 123#7 := by
  apply BitVec.eq_of_toNat_eq
  simp only [toNat_append_eq_add]
  simp [pack, packNat, bits, Nat.shiftLeft_eq]
  omega

/-- The two parts of the immediate, joined. -/
theorem ext_append_ext (i : BitVec 40) : ext 15 25 i ++ ext 0 15 i = i :=
  (BitVec.extractLsb'_append_extractLsb'_eq_extractLsb' rfl).trans BitVec.extractLsb'_eq_self

theorem decodeLong_ldiL (d : XName) (low : BitVec 15) (high : BitVec 25) :
    decodeLong (pack [bits 0#5, bits d, bits low, bits 127#7]) (pack [bits high, bits 123#7]) = some (.ldiL d (high ++ low)) := by
  have major : ext 27 5 (pack [bits 0#5, bits d, bits low, bits 127#7] : BitVec 32) = 0#5 := by
    rw [ext_pack _ _ _ (by simp), cutField_bits _ _ _ (by simp) (by simp)]
  have dest : ext 22 5 (pack [bits 0#5, bits d, bits low, bits 127#7] : BitVec 32) = d := by
    rw [ext_pack _ _ _ (by simp), cutField_below _ _ _ _ (by simp), cutField_bits _ _ _ (by simp) (by simp)]
  have lowPart : ext 7 15 (pack [bits 0#5, bits d, bits low, bits 127#7] : BitVec 32) = low := by
    rw [ext_pack _ _ _ (by simp), cutField_below _ _ _ _ (by simp), cutField_below _ _ _ _ (by simp),
      cutField_bits _ _ _ (by simp) (by simp)]
  have highPart : ext 7 25 (pack [bits high, bits 123#7] : BitVec 32) = high := by
    rw [ext_pack _ _ _ (by simp), cutField_bits _ _ _ (by simp) (by simp)]
  simp [decodeLong, major, dest, lowPart, highPart]

/-- Two words with the low bits of a long instruction decode by the long table. -/
theorem decodeAt_long {w w2 : BitVec 32} (h : ext 0 7 w = 127#7) (h2 : ext 0 7 w2 = 123#7) :
    decodeAt w w2 false = Decoded.ofOption (decodeLong w w2) 8 := by
  have e : ∀ lo n, lo + n ≤ 7 → ext lo n w = ext lo n (127#7) := by
    intro lo n hn
    rw [← h]
    apply BitVec.eq_of_getLsbD_eq
    intro i hi
    simp [ext_eq_extractLsb', hi, show lo + i < 7 by omega]
  have bit0 : ext 0 1 w = 1#1 := e 0 1 (by simp)
  have low2 : ext 0 2 w = 3#2 := e 0 2 (by simp)
  have major : ext 2 5 w = 31#5 := e 2 5 (by simp)
  simp [decodeAt, bit0, low2, major, h2]

end Sys2Proof

namespace Sys2Proof.Machine

/-! ## Counts, lengths and values as arithmetic -/

theorem shiftCount_eq (y : Word) : shiftCount y = y.toNat % 64 := by simp [shiftCount]

theorem fieldLen_eq (y : Word) : fieldLen y = min (y.toNat / 256 % 128) 64 := by
  simp [fieldLen, Nat.shiftRight_eq_div_pow]

theorem fshlWord_eq (o x y : Word) :
    fshlWord o x y = BitVec.ofNat 64 ((o.toNat * 2 ^ 64 + x.toNat) * 2 ^ (y.toNat % 64) / 2 ^ 64 % 2 ^ 64) := by
  apply BitVec.eq_of_toNat_eq
  simp only [fshlWord, shiftCount_eq, BitVec.extractLsb'_toNat, BitVec.toNat_shiftLeft, toNat_append_eq_add, BitVec.toNat_ofNat,
    Nat.shiftLeft_eq, Nat.shiftRight_eq_div_pow, Nat.mod_mod]
  rw [Nat.pow_add 2 64 64, Nat.mod_mul_right_div_self, Nat.mod_mod]

theorem fshrWord_eq (o x y : Word) :
    fshrWord o x y = BitVec.ofNat 64 ((x.toNat * 2 ^ 64 + o.toNat) / 2 ^ (y.toNat % 64) % 2 ^ 64) := by
  apply BitVec.eq_of_toNat_eq
  simp only [fshrWord, shiftCount_eq, BitVec.extractLsb'_toNat, BitVec.toNat_ushiftRight, toNat_append_eq_add, BitVec.toNat_ofNat,
    Nat.shiftRight_eq_div_pow, Nat.mod_mod, Nat.pow_zero, Nat.div_one]

theorem bextWord_eq (x y : Word) :
    bextWord x y = BitVec.ofNat 64 (x.toNat / 2 ^ (y.toNat % 64) % 2 ^ min (y.toNat / 256 % 128) 64) := by
  apply BitVec.eq_of_toNat_eq
  simp [bextWord, zextWord, shiftCount_eq, fieldLen_eq, Nat.shiftRight_eq_div_pow]

/-- A shift to the left multiplies, modulo the width. -/
theorem ofNat_shiftLeft (w n k : Nat) : BitVec.ofNat w n <<< k = BitVec.ofNat w (n * 2 ^ k) := by
  apply BitVec.eq_of_toNat_eq
  simp [Nat.shiftLeft_eq]

theorem zextWord_eq (x : Word) (n : Nat) : zextWord x n = BitVec.ofNat 64 (x.toNat % 2 ^ n) := by
  apply BitVec.eq_of_toNat_eq
  simp [zextWord]

theorem binsWord_eq (o x y : Word) :
    binsWord o x y =
      (o &&& ~~~BitVec.ofNat 64 ((2 ^ min (y.toNat / 256 % 128) 64 - 1) * 2 ^ (y.toNat % 64))) |||
        BitVec.ofNat 64 (x.toNat % 2 ^ min (y.toNat / 256 % 128) 64 * 2 ^ (y.toNat % 64)) := by
  simp only [binsWord, zextWord_eq, ofNat_shiftLeft, shiftCount_eq, fieldLen_eq]

/-! ## Clearing a tag -/

theorem execCclr_next {d : XName} {a : Src} {s : State} (hd : s.img.writable d) (ha : s.readable a.reg) :
    execCclr d a s = .next (s.completes (s.setImg ((s.img.popped a.reg).put d (s.img.sourceVal a.reg).val false))) := by
  obtain ⟨t, ht, shown, img, cur⟩ := readSrc_run ha
  obtain ⟨u, hu, shown', -, cur'⟩ := writeX_run shown img cur (writable_popped hd) (s.img.sourceVal a.reg).val false
  refine plain_shown (t := u) ?_ shown' cur'
  simp only [Op.bind_run, destReady_ok hd, ht]
  exact hu

/-! ## The statements -/

/-- Settles O9: each funnel shift is an operation on its old destination whose word is that of the arithmetic. -/
theorem funnelShifts : Obligations.FunnelShifts := by
  intro s d a b hd ho ha hb old x n high low put
  refine ⟨?_, ?_, fun h0 => ?_⟩
  · rw [exec_fshl, execFshl, destOp_next hd ho ha hb, fshlWord_eq]
  · rw [exec_fshr, execFshr, destOp_next hd ho ha hb, fshrWord_eq]
  · have hold : old < 2 ^ 64 := (s.img.word d).isLt
    have hx : x < 2 ^ 64 := (s.img.word a.reg).isLt
    simp only [high, low, h0, Nat.pow_zero]
    omega

/-- Settles O10: the words of `bext` and `bins` are those of the arithmetic, and a field of length 0 is empty. -/
theorem bitFields : Obligations.BitFields := by
  intro s d a b hd ho ha hb old x y p len mask field got new put
  refine ⟨?_, ?_, fun h0 => ?_⟩
  · rw [exec_bext, execBext, binaryOp_next hd ha hb, bextWord_eq]
  · rw [exec_bins, execBins, destOp_next hd ho ha hb, binsWord_eq]
  · have noMask : mask = 0#64 := by simp [mask, h0]
    have noField : field = 0#64 := by simp [field, h0, Nat.mod_one]
    refine ⟨by simp [got, h0, Nat.mod_one], ?_⟩
    calc new = (old &&& ~~~0#64) ||| 0#64 := by simp only [new, noMask, noField]
      _ = old := by rw [BitVec.not_zero, BitVec.and_allOnes, BitVec.or_zero]

/-- Settles O11: the encoder's words are the fields side by side, the decoder cuts them out again, and the meaning is a constant's. -/
theorem longConstants : Obligations.LongConstants := by
  intro d i w w2
  have first : w = pack [bits 0#5, bits d, bits (ext 0 15 i), bits 127#7] := (pack_ldiL_first d (ext 0 15 i)).symm
  have second : w2 = pack [bits (ext 15 25 i), bits 123#7] := (pack_ldiL_second (ext 15 25 i)).symm
  refine ⟨?_, ?_, fun s hd => constOp_next hd⟩
  · rw [first, second, encode]
  · have low : ext 0 7 w = 127#7 := BitVec.extractLsb'_append_eq_right
    have low2 : ext 0 7 w2 = 123#7 := BitVec.extractLsb'_append_eq_right
    rw [decodeAt_long low low2, first, second, decodeLong_ldiL, ext_append_ext, Decoded.ofOption]

/-- Settles O21: the write keeps the source's 128 bits and takes the tag off. -/
theorem clearedTags : Obligations.ClearedTags := by
  intro s d a hd ha
  rw [exec_cclr, execCclr_next hd ha]

end Sys2Proof.Machine
